-- ==== Sys2Proof/Word.lean ====
section
/-! DEFINITION. The CMU's word and byte (R7, R23): every register, data word and command word has 32 bits, a colour
channel has 8. -/

namespace Sys2Proof

/-- A 32-bit register, bus or slot word (R7). -/
abbrev Word := BitVec 32

/-- One 8-bit colour channel or raw-pixel byte (R23, R31). -/
abbrev Byte := BitVec 8

end Sys2Proof
end

