-- ==== Sys2Proof/Syntax.lean ====
section
/-! DEFINITION. What the host can say to the CMU: the commands (R73, one constructor for each row of
spec/opcode_table.json), the registers of the bus map (R51), bus transactions (R77), and the other inputs of a run
(platform reset R230, sink answers R61). -/

namespace Sys2Proof

/-- The commands, a flagged form being a constructor of its own (R73). A command carries no operand: every operand
stands in a register with a fixed role (R70, R74). -/
inductive Instr where
  | nop
  | init
  | clrerr
  | rgb2hsv
  | hsv2rgb
  | wheel
  | enc
  | sel
  | selInv
  | tidx
  | tidxBnc
  | fade
  | fadeOut
  | wpos
  | wposRb
  | put
  | putFl
  | fill
  | fillFl
  | flush
  | set
  | setAll
  | clear
deriving DecidableEq, Repr

/-- The three fields of a command word, format C (R71). -/
structure CommandWord where
  /-- bits 7:0 -/
  op : BitVec 8
  /-- bit 8 -/
  flag : Bool
  /-- bits 31:9, reserved -/
  z : BitVec 23
deriving DecidableEq, Repr

/-- The registers of the bus map, under the spec's names (R51). -/
inductive Reg where
  | CMD
  | STATUS
  | CAUSE
  | FINFO
  | CFG
  | CFGIN
  | RGB
  | H
  | S
  | V
  | INT
  | POS
  | PERIOD
  | IDX
  | FRAME
  | TGT
  | RAW
deriving DecidableEq, Repr

/-- One host bus transaction (R58, R77). `width` is the access width in bytes and `off` the byte offset in the CMU's
256-byte block; the illegal widths and alignments of R56 are expressible so that their answer can be modelled. -/
inductive Transaction where
  | read (width : Nat) (off : BitVec 8)
  | write (width : Nat) (off : BitVec 8) (data : Word)
deriving DecidableEq, Repr

/-- What reaches the CMU from outside, between steps. -/
inductive Input where
  /-- a transaction of the one host (R20) -/
  | bus (t : Transaction)
  /-- a transaction of a second bus master, which a model must refuse (R59) -/
  | secondMaster (t : Transaction)
  /-- the platform asserts reset (R230) -/
  | reset
deriving DecidableEq, Repr

/-- The sink's answer to a `Flush` (R61). -/
inductive SinkAnswer where
  | ok
  | fail
deriving DecidableEq, Repr, Inhabited

/-- The protocol variant, `CFG.PROTO` (R13, R32). -/
inductive Protocol where
  /-- `PROTO` = 0 -/
  | threeChannel
  /-- `PROTO` = 1 -/
  | fourChannelWithIntensity
deriving DecidableEq, Repr

/-- The `OKAY` or `ERROR` of a bus response (R58). -/
inductive BusStatus where
  | okay
  | error
deriving DecidableEq, Repr

/-- What the CMU answers to a transaction (R58): `BusRead` returns a response and a word, `BusWrite` a response. -/
inductive BusAnswer where
  | read (status : BusStatus) (data : Word)
  | write (status : BusStatus)
deriving DecidableEq, Repr

end Sys2Proof
end

