-- ==== Sys2Proof/Config.lean ====
section
/-! DEFINITION. The capacity the machine has after reset, and the values the spec leaves to the environment. -/

namespace Sys2Proof

/-- `NPIX_MAX` of the machine after reset (R6). The spec leaves it open between 1 and 65535; 1024 is the value its
test vectors assume. DESIGN CHOICE, unsafe for a statement about the reset state only: the meanings read the
capacity from the state, so a statement over all states holds for every capacity (log entry 7). -/
def Config.npixMax : Nat := 1024

/-- The sink's answer to the `n`-th flush of a run when the state lists no answer: a free choice of the environment,
not computed (R61, U7). A free value: nothing can be proved of it. It depends on the number of flushes and not on the snapshot, which is
unsafe for a statement that compares two runs (log entry 3). -/
opaque Config.sinkAnswer : Nat → SinkAnswer

/-- What slot `i` of the strip shows after the `n`-th flush was answered `fail`: unspecified, slot by slot (R42, U4).
A free value, safe (log entry 4). -/
opaque Config.tornSlot : Nat → Nat → Word

end Sys2Proof
end

