-- ==== Sys2Proof/Machine/State.lean ====
section
/-! DEFINITION. The machine's state (R21): the registers, the fault registers, the pixel memory, what the sink shows,
and the inputs of a run; and the state after reset (R45, R230). -/

namespace Sys2Proof.Machine

/-- Why the machine stops with a fault: never. What the spec calls a fault is a next state, with `STATUS.ERR`,
`CAUSE` and `FINFO` written (R203), a bus `ERROR` is an answer (R212), and every command terminates (R235). So the
type has no constructor, which is safe: no step can answer with one. -/
inductive Fault where
deriving DecidableEq, Repr

/-- Why a step has no meaning. -/
inductive Refusal where
  /-- Raised by an arm of `exec` whose instruction has no meaning yet; no arm does. Safe. -/
  | notModelled (mnemonic : String)
  /-- Raised by the step when the next input is a transaction of a second bus master: "A second bus master or a second
  sink is outside the spec; a model must refuse it rather than interleave it" (R59). Safe. -/
  | secondMaster
deriving DecidableEq, Repr

/-- The CMU's fault causes (R201), the spec's own names. -/
inductive Cause where
  | invalidConfig
  | indexOutOfRange
  /-- reserved, never raised (R215) -/
  | invalidColorFormat
  | hardwareWriteFailure
  | illegalCommand
  | invalidOperand
  | notConfigured
deriving DecidableEq, Repr

/-- The pixel memory: pairs of a slot index and the slot's word. The slot is the smallest unit any access has (R54,
R55). Canonical form: indices strictly rising, no pair that holds what an unlisted slot reads as.
DESIGN CHOICE on the form: slots, not bytes (log entry 14). -/
abbrev Memory := List (Nat × Word)

/-- What an unlisted slot reads as. DESIGN CHOICE: R231 leaves the contents at reset unspecified and lets a model take
zeros, since no command can observe them before `INIT` writes every used slot (log entry 6). -/
def unlistedSlot : Word := 0

/-- The canonical form of the pixel memory. -/
def Memory.wf : Memory → Bool
  | [] => true
  | [c] => c.2 != unlistedSlot
  | c :: d :: m => c.2 != unlistedSlot && decide (c.1 < d.1) && Memory.wf (d :: m)

/-- One `Flush` as the event history records it (R61): the snapshot, `CFG.PROTO`, and the sink's answer. -/
structure FlushEvent where
  snapshot : List Word
  proto : Protocol
  answer : SinkAnswer
deriving DecidableEq, Repr

/-- The state of the machine. The fields in capitals are the spec's (R21, R42). -/
structure State where
  /-- `RGB[23:0]`; bits 31:24 of the register are always 0 (R23) -/
  RGB : BitVec 24
  /-- hue, a binary32 pattern (R24) -/
  H : Word
  /-- saturation, a binary32 pattern (R24) -/
  S : Word
  /-- value, a binary32 pattern (R24) -/
  V : Word
  /-- intensity, a binary32 pattern (R25) -/
  INT : Word
  /-- wheel position (R26) -/
  POS : Word
  /-- wheel period (R27) -/
  PERIOD : Word
  /-- pixel index (R28) -/
  IDX : Word
  /-- frame or step counter, which the host writes (R29) -/
  FRAME : Word
  /-- index of the travelling pixel (R30) -/
  TGT : Word
  /-- one raw pixel (R31) -/
  RAW : Word
  /-- the staged configuration (R32) -/
  CFGIN : Word
  /-- the latched configuration (R33) -/
  CFG : Word
  /-- `STATUS.CFGD` (R34) -/
  CFGD : Bool
  /-- `STATUS.ERR` (R34) -/
  ERR : Bool
  /-- `CAUSE[7:0]` (R35) -/
  CAUSE : BitVec 8
  /-- `FINFO` (R36) -/
  FINFO : Word
  /-- the pixel buffer (R38) -/
  PB : Memory
  /-- the frame the strip displays, held by the sink (R42) -/
  DISP : List Word
  /-- the capacity of the pixel memory, `NPIX_MAX` (R6, R38); no step changes it -/
  npixMax : Nat
  /-- the history of `Flush` events, oldest first (R61) -/
  events : List FlushEvent
  /-- model's own: the sink's coming answers; when none is listed the answer is free (R61) -/
  sinkAnswers : List SinkAnswer
  /-- model's own: the coming inputs, the next one first (R77) -/
  pending : List Input
  /-- model's own: the answer to the last transaction (R58) -/
  answer : Option BusAnswer
deriving DecidableEq, Repr

/-- The machine right after reset (R45, R230): all zero but `INT` = 1.0 and `PERIOD` = 360. The last seven fields are
not registers: log entries 1 to 7. -/
def State.reset : State where
  RGB := 0x000000
  H := 0x00000000
  S := 0x00000000
  V := 0x00000000
  INT := 0x3F800000
  POS := 0
  PERIOD := 0x00000168
  IDX := 0
  FRAME := 0
  TGT := 0
  RAW := 0x00000000
  CFGIN := 0x00000000
  CFG := 0x00000000
  CFGD := false
  ERR := false
  CAUSE := 0
  FINFO := 0
  PB := []
  DISP := []
  npixMax := Config.npixMax
  events := []
  sinkAnswers := []
  pending := []
  answer := none

end Sys2Proof.Machine
end

