-- ==== Sys2Proof/Machine/Flags.lean ====
section
/-! DEFINITION. The flag-like state (R34, R41): the CMU has no condition codes, only `STATUS.CFGD` and `STATUS.ERR`, and
the cause codes of R201. -/

namespace Sys2Proof.Machine

/-- `STATUS` as the host reads it: `CFGD` in bit 0, `ERR` in bit 1, bits 31:2 zero (R34). -/
def statusWord (s : State) : Word :=
  0#30 ++ BitVec.ofBool s.ERR ++ BitVec.ofBool s.CFGD

/-- The code of a cause (R201). -/
def causeCode : Cause → BitVec 8
  | .invalidConfig => 1
  | .indexOutOfRange => 2
  | .invalidColorFormat => 3
  | .hardwareWriteFailure => 4
  | .illegalCommand => 5
  | .invalidOperand => 6
  | .notConfigured => 7

end Sys2Proof.Machine
end

