-- ==== Sys2Proof/WellFormed.lean ====
section
/-! DEFINITION. Which terms of the syntax the spec admits. A command has no operand, so every `Instr` is well formed
(R70); the checks with content are those of a command word's fields (R71, R72 step 2) and of a transaction (R56). -/

namespace Sys2Proof

/-- The `OP` values of the sixteen commands (R73). -/
def opcodes : List (BitVec 8) :=
  [0x00, 0x01, 0x02, 0x10, 0x11, 0x12, 0x20, 0x21, 0x22, 0x23, 0x24, 0x30, 0x31, 0x32, 0x33, 0x34]

/-- The `OP` values of the commands that have a flag (R73): `SEL`, `TIDX`, `FADE`, `WPOS`, `PUT`, `FILL`, `SET`. -/
def flaggedOpcodes : List (BitVec 8) :=
  [0x21, 0x22, 0x23, 0x24, 0x30, 0x31, 0x33]

/-- The reserved bits 31:9 are 0 (R71). -/
def CommandWord.reservedZero (c : CommandWord) : Bool := c.z == 0

/-- `OP` is an opcode of R73. -/
def CommandWord.opcodeKnown (c : CommandWord) : Bool := opcodes.contains c.op

/-- `F` = 1 only on a command that has a flag (R71). -/
def CommandWord.flagAllowed (c : CommandWord) : Bool := !c.flag || flaggedOpcodes.contains c.op

/-- The command words R72 step 2 lets pass. -/
def CommandWord.wellFormed (c : CommandWord) : Bool :=
  c.reservedZero && c.opcodeKnown && c.flagAllowed

/-- Every command is well formed: it has no operand field that could be out of range (R70). -/
def Instr.wellFormed : Instr → Bool
  | .nop | .init | .clrerr | .rgb2hsv | .hsv2rgb | .wheel | .enc | .sel | .selInv | .tidx | .tidxBnc | .fade
  | .fadeOut | .wpos | .wposRb | .put | .putFl | .fill | .fillFl | .flush | .set | .setAll | .clear => true

/-- The access is four bytes wide (R56). -/
def Transaction.widthLegal : Transaction → Bool
  | .read width _ => width == 4
  | .write width _ _ => width == 4

/-- The offset is a multiple of four (R56). -/
def Transaction.aligned : Transaction → Bool
  | .read _ off => off.toNat % 4 == 0
  | .write _ off _ => off.toNat % 4 == 0

/-- The only legal access is 4 bytes wide at an offset that is a multiple of 4 (R56). -/
def Transaction.wellFormed (t : Transaction) : Bool := t.widthLegal && t.aligned

end Sys2Proof
end

