-- ==== Sys2Proof/Decode.lean ====
section
/-! DEFINITION. Reading and writing command words: format C (R71), dispatch step 2 (R72), the opcode map (R73), and the
mnemonics. The decoder is total on 32-bit words and names why it rejects a word. -/

namespace Sys2Proof

/-- Why a word is no command (R72 step 2, R75). Every reason leads to `IllegalCommand`. -/
inductive DecodeError where
  /-- a bit of 31:9 is set -/
  | reservedBits
  /-- bits 7:0 are no opcode of R73 -/
  | unknownOpcode
  /-- bit 8 is set on a command that has no flag -/
  | flagNotAllowed
deriving DecidableEq, Repr

/-- The fields of a command word (R71). -/
def splitWord (w : Word) : CommandWord where
  op := w.extractLsb' 0 8
  flag := w.getLsbD 8
  z := w.extractLsb' 9 23

/-- The word with the given fields (R71). -/
def joinWord (c : CommandWord) : Word :=
  c.z ++ BitVec.ofBool c.flag ++ c.op

/-- The command with opcode `op` and flag `flag`, where R73 has one. -/
def lookupOpcode (op : BitVec 8) (flag : Bool) : Option Instr :=
  match op.toNat, flag with
  | 0x00, false => some .nop
  | 0x01, false => some .init
  | 0x02, false => some .clrerr
  | 0x10, false => some .rgb2hsv
  | 0x11, false => some .hsv2rgb
  | 0x12, false => some .wheel
  | 0x20, false => some .enc
  | 0x21, false => some .sel
  | 0x21, true => some .selInv
  | 0x22, false => some .tidx
  | 0x22, true => some .tidxBnc
  | 0x23, false => some .fade
  | 0x23, true => some .fadeOut
  | 0x24, false => some .wpos
  | 0x24, true => some .wposRb
  | 0x30, false => some .put
  | 0x30, true => some .putFl
  | 0x31, false => some .fill
  | 0x31, true => some .fillFl
  | 0x32, false => some .flush
  | 0x33, false => some .set
  | 0x33, true => some .setAll
  | 0x34, false => some .clear
  | _, _ => none

/-- The decoder (R72 step 2, R73): total on words, rejecting by name. -/
def decode (w : Word) : Except DecodeError Instr :=
  let c := splitWord w
  if !c.reservedZero then .error .reservedBits
  else if !c.opcodeKnown then .error .unknownOpcode
  else
    match lookupOpcode c.op c.flag with
    | some i => .ok i
    | none => .error .flagNotAllowed

/-- The fields of a command's word, from the columns `OP` and `F` of R73. -/
def fieldsOf : Instr → CommandWord
  | .nop => ⟨0x00, false, 0⟩
  | .init => ⟨0x01, false, 0⟩
  | .clrerr => ⟨0x02, false, 0⟩
  | .rgb2hsv => ⟨0x10, false, 0⟩
  | .hsv2rgb => ⟨0x11, false, 0⟩
  | .wheel => ⟨0x12, false, 0⟩
  | .enc => ⟨0x20, false, 0⟩
  | .sel => ⟨0x21, false, 0⟩
  | .selInv => ⟨0x21, true, 0⟩
  | .tidx => ⟨0x22, false, 0⟩
  | .tidxBnc => ⟨0x22, true, 0⟩
  | .fade => ⟨0x23, false, 0⟩
  | .fadeOut => ⟨0x23, true, 0⟩
  | .wpos => ⟨0x24, false, 0⟩
  | .wposRb => ⟨0x24, true, 0⟩
  | .put => ⟨0x30, false, 0⟩
  | .putFl => ⟨0x30, true, 0⟩
  | .fill => ⟨0x31, false, 0⟩
  | .fillFl => ⟨0x31, true, 0⟩
  | .flush => ⟨0x32, false, 0⟩
  | .set => ⟨0x33, false, 0⟩
  | .setAll => ⟨0x33, true, 0⟩
  | .clear => ⟨0x34, false, 0⟩

/-- The encoder: the one word of a command (R70, R73). -/
def encode (i : Instr) : Word := joinWord (fieldsOf i)

/-- The assembler's name of a command (R73, R78). -/
def mnemonic : Instr → String
  | .nop => "NOP"
  | .init => "INIT"
  | .clrerr => "CLRERR"
  | .rgb2hsv => "RGB2HSV"
  | .hsv2rgb => "HSV2RGB"
  | .wheel => "WHEEL"
  | .enc => "ENC"
  | .sel => "SEL"
  | .selInv => "SEL.INV"
  | .tidx => "TIDX"
  | .tidxBnc => "TIDX.BNC"
  | .fade => "FADE"
  | .fadeOut => "FADE.OUT"
  | .wpos => "WPOS"
  | .wposRb => "WPOS.RB"
  | .put => "PUT"
  | .putFl => "PUT.FL"
  | .fill => "FILL"
  | .fillFl => "FILL.FL"
  | .flush => "FLUSH"
  | .set => "SET"
  | .setAll => "SET.ALL"
  | .clear => "CLEAR"

/-- The word of an instruction as the opcode table numbers its bits: one 32-bit word, bit 0 the least significant;
the bits above `nbits` are 0. -/
def tableWord (nbits w : Nat) : Word := BitVec.ofNat 32 (w % 2 ^ nbits)

/-- The instruction the decoder reads from a row of the opcode table. There is no longer form (R76), so a row of more
than 32 bits whose upper bits are set is none. -/
def decodeTableWord (nbits w : Nat) : Option Instr :=
  if w % 2 ^ nbits < 2 ^ 32 then
    match decode (tableWord nbits w) with
    | .ok i => some i
    | .error _ => none
  else none

end Sys2Proof
end

