-- ==== Sys2Proof/Machine/Numerics.lean ====
section
/-! DEFINITION. The exact arithmetic of a command (R9, R90 to R98): binary32 patterns to rationals and back, rounding,
and the three colour functions. Nothing is rounded but where a rule says so. -/

namespace Sys2Proof.Machine

/-- `2 ^ k` for an integer `k`, as a rational. -/
def pow2 : Int → ℚ
  | .ofNat n => ((2 ^ n : Nat) : ℚ)
  | .negSucc n => 1 / ((2 ^ (n + 1) : Nat) : ℚ)

/-- The biased exponent `w[30:23]` of a binary32 pattern (R91). -/
def floatExponent (w : Word) : Nat := (w.extractLsb' 23 8).toNat

/-- The fraction `w[22:0]` of a binary32 pattern (R91). -/
def floatFraction (w : Word) : Nat := (w.extractLsb' 0 23).toNat

/-- The sign `w[31]` of a binary32 pattern (R91). -/
def floatSign (w : Word) : Bool := w.getLsbD 31

/-- The magnitude of a finite pattern: subnormal for exponent 0, normal otherwise (R91). -/
def floatMagnitude (w : Word) : ℚ :=
  if floatExponent w = 0 then (floatFraction w : ℚ) * pow2 (-149)
  else ((2 ^ 23 + floatFraction w : Nat) : ℚ) * pow2 ((floatExponent w : Int) - 150)

/-- The exact value of a binary32 pattern; none for an infinity or a NaN (R91). -/
def val (w : Word) : Option ℚ :=
  if floatExponent w = 255 then none
  else some (if floatSign w then -floatMagnitude w else floatMagnitude w)

/-- Round to the nearest integer, ties to even (R93). -/
def rhe (q : ℚ) : Int :=
  let n := ⌊q⌋
  let d := q - n
  if d < 1 / 2 then n
  else if 1 / 2 < d then n + 1
  else if n % 2 = 0 then n
  else n + 1

/-- For `q > 0`, the integer `e` with `2 ^ e ≤ q < 2 ^ (e + 1)` (R92). The difference of the bit lengths of numerator
and denominator is `e` or `e + 1`. -/
def binaryExponent (q : ℚ) : Int :=
  let k : Int := (Nat.log2 q.num.toNat : Int) - (Nat.log2 q.den : Int)
  if pow2 k ≤ q then k else k - 1

/-- The binary32 pattern nearest to a rational `q ≥ 0`, ties to the even fraction (R92). Every `q` a command rounds
lies in [0, 1], so no result is an infinity. -/
def rnd32 (q : ℚ) : Word :=
  if q = 0 then 0x00000000
  else
    let E := max (binaryExponent q) (-126)
    let n := rhe (q / pow2 (E - 23))
    if n = 2 ^ 24 then BitVec.ofInt 32 (E + 1 + 127) <<< 23
    else if n < 2 ^ 23 then BitVec.ofInt 32 n
    else BitVec.ofInt 32 (E + 127) <<< 23 ||| BitVec.ofInt 32 (n - 2 ^ 23)

/-- Limit an integer to 0 .. 255 (R94). -/
def clamp8 (n : Int) : Nat :=
  if n < 0 then 0 else if 255 < n then 255 else n.toNat

/-- The channel of a component (R94). -/
def chan (x : ℚ) : Nat := clamp8 (rhe (255 * x))

/-- A colour as three integer channels (R96, R97). -/
structure Colour where
  r : Nat
  g : Nat
  b : Nat
deriving DecidableEq, Repr

/-- A colour as exact hue, saturation and value (R96). -/
structure HSV where
  h : ℚ
  s : ℚ
  v : ℚ
deriving DecidableEq, Repr

/-- `x mod m` on rationals: in `[0, m)` for `m > 0` (R96). -/
def ratMod (x m : ℚ) : ℚ := x - m * ⌊x / m⌋

/-- RGB to HSV in exact arithmetic (R96). The maximum is looked for in red, then green, then blue. -/
def rgb2hsvQ (c : Colour) : HSV :=
  let mx := max (max c.r c.g) c.b
  let mn := min (min c.r c.g) c.b
  let d : ℚ := (mx : ℚ) - mn
  { h :=
      if d = 0 then 0
      else if mx = c.r then ratMod (((c.g : ℚ) - c.b) / d) 6 / 6
      else if mx = c.g then (((c.b : ℚ) - c.r) / d + 2) / 6
      else (((c.r : ℚ) - c.g) / d + 4) / 6
    s := if mx = 0 then 0 else d / mx
    v := (mx : ℚ) / 255 }

/-- HSV to RGB in exact arithmetic, one rounding for each channel (R97). The hue is reduced first, for any rational. -/
def hsv2rgbQ (h s v : ℚ) : Colour :=
  let k := ⌊6 * h⌋
  let f := 6 * h - k
  let p := v * (1 - s)
  let q := v * (1 - f * s)
  let t := v * (1 - (1 - f) * s)
  match (k % 6).toNat with
  | 0 => ⟨chan v, chan t, chan p⟩
  | 1 => ⟨chan q, chan v, chan p⟩
  | 2 => ⟨chan p, chan v, chan t⟩
  | 3 => ⟨chan p, chan q, chan v⟩
  | 4 => ⟨chan t, chan p, chan v⟩
  | _ => ⟨chan v, chan p, chan q⟩

/-- The colour at position `pos` of a wheel of period `P ≥ 1`, at value `v` (R98). -/
def wheelQ (pos P : Nat) (v : ℚ) : Colour :=
  hsv2rgbQ (((pos % P : Nat) : ℚ) / P) 1 v

/-- The three-channel intensity scaler: the value is replaced, not multiplied (R121). -/
def enc3 (c : Colour) (x : ℚ) : Colour :=
  if 1 ≤ x then c
  else
    let hsv := rgb2hsvQ c
    hsv2rgbQ hsv.h hsv.s x

/-- The four-channel intensity quantiser (R122). -/
def enc4 (x : ℚ) : Nat :=
  let n := ⌈31 * x⌉
  if n < 0 then 0 else if 31 < n then 31 else n.toNat

end Sys2Proof.Machine
end

