-- ==== Sys2Proof/Machine/Operands.lean ====
section
/-! DEFINITION. The operand forms: register offsets (R51), the fields of `RGB`, `RAW` and `CFG` (R23, R31, R32), the
pixel encoders over words (R123, R124), and how long an index or count is. -/

namespace Sys2Proof.Machine

/-- The byte offset of a register (R51). -/
def offsetOf : Reg → BitVec 8
  | .CMD => 0x00
  | .STATUS => 0x04
  | .CAUSE => 0x08
  | .FINFO => 0x0C
  | .CFG => 0x10
  | .CFGIN => 0x14
  | .RGB => 0x18
  | .H => 0x1C
  | .S => 0x20
  | .V => 0x24
  | .INT => 0x28
  | .POS => 0x2C
  | .PERIOD => 0x30
  | .IDX => 0x34
  | .FRAME => 0x38
  | .TGT => 0x3C
  | .RAW => 0x40

/-- The colour in `RGB`: red in bits 23:16, green in 15:8, blue in 7:0 (R23). -/
def colourOf (rgb : BitVec 24) : Colour where
  r := (rgb.extractLsb' 16 8).toNat
  g := (rgb.extractLsb' 8 8).toNat
  b := (rgb.extractLsb' 0 8).toNat

/-- Three channels packed as `RGB[23:0]` (R23). -/
def packColour (c : Colour) : BitVec 24 :=
  BitVec.ofNat 8 c.r ++ BitVec.ofNat 8 c.g ++ BitVec.ofNat 8 c.b

/-- `COUNT`, bits 15:0 of a configuration word (R32). -/
def countOf (cfg : Word) : Nat := (cfg.extractLsb' 0 16).toNat

/-- `PROTO`, bit 16 of a configuration word (R32). -/
def protoOf (cfg : Word) : Protocol :=
  if cfg.getLsbD 16 then .fourChannelWithIntensity else .threeChannel

/-- `PERM`, bits 19:17 of a configuration word (R32). -/
def permOf (cfg : Word) : Nat := (cfg.extractLsb' 17 3).toNat

/-- The reserved bits 31:20 of a configuration word (R32). -/
def reservedOf (cfg : Word) : Nat := (cfg.extractLsb' 20 12).toNat

/-- The configurations `INIT` accepts on a memory of `npixMax` slots (R32, R120). -/
def legalConfig (npixMax : Nat) (cfg : Word) : Bool :=
  reservedOf cfg == 0 && decide (permOf cfg ≤ 5) && decide (1 ≤ countOf cfg) && decide (countOf cfg ≤ npixMax)

/-- The raw pixel of a colour at intensity `x` under a protocol, in canonical channel order (R123). -/
def encodePixel (rgb : BitVec 24) (x : ℚ) : Protocol → Word
  | .threeChannel => 0#8 ++ packColour (enc3 (colourOf rgb) x)
  | .fourChannelWithIntensity => 0#3 ++ BitVec.ofNat 5 (enc4 x) ++ rgb

/-- The dark pixel (R126). -/
def darkPixel : Word := 0x00000000

/-- The channel reorder of a buffer write: the three colour bytes move, bits 31:24 stay (R124). `INIT` admits only
`perm` 0 to 5; what 6 and 7 would do is stated nowhere, and no run reaches them (log entry 8). -/
def permute (raw : Word) (perm : Nat) : Word :=
  let top := raw.extractLsb' 24 8
  let c0 := raw.extractLsb' 16 8
  let c1 := raw.extractLsb' 8 8
  let c2 := raw.extractLsb' 0 8
  match perm with
  | 0 => top ++ c0 ++ c1 ++ c2
  | 1 => top ++ c0 ++ c2 ++ c1
  | 2 => top ++ c1 ++ c0 ++ c2
  | 3 => top ++ c1 ++ c2 ++ c0
  | 4 => top ++ c2 ++ c0 ++ c1
  | 5 => top ++ c2 ++ c1 ++ c0
  | _ => raw

end Sys2Proof.Machine
end

