-- ==== Sys2Proof/Machine/Ops.lean ====
section
/-! DEFINITION. The shared operations of the commands: taking a fault and returning from it (R203, R205), the gates of
dispatch (R72), the finite check (R95), the pixel memory (R53, R54) and the flush (R61, R130). -/

namespace Sys2Proof.Machine

/-- Fault entry (R203): `STATUS.ERR`, `CAUSE` and `FINFO` are written and nothing else. There is no pc, mode or
handler address to change. -/
def raiseFault (c : Cause) (info : Word) (s : State) : State :=
  { s with ERR := true, CAUSE := causeCode c, FINFO := info }

/-- The return from a fault (R171, R205): the three are cleared and nothing is restored. -/
def acknowledge (s : State) : State :=
  { s with ERR := false, CAUSE := 0, FINFO := 0 }

/-- Which commands need `STATUS.CFGD` = 1 (R74, column "needs CFGD"). -/
def needsCfgd : Instr → Bool
  | .nop | .init | .clrerr | .rgb2hsv | .hsv2rgb | .wheel | .fade | .fadeOut => false
  | .enc | .sel | .selInv | .tidx | .tidxBnc | .wpos | .wposRb | .put | .putFl | .fill | .fillFl | .flush | .set
  | .setAll | .clear => true

/-- Dispatch of a legal command other than `CLRERR` (R72 steps 1, 3 and 4): ignored while a fault is recorded,
`NotConfigured` with the command word if it needs a configuration and there is none, its own rule otherwise.
DESIGN CHOICE on the form: the gates stand at the head of each meaning (log entry 12). -/
def command (i : Instr) (s : State) (body : State → State) : Host.Outcome State Fault Refusal :=
  .next
    (if s.ERR then s
     else if needsCfgd i && !s.CFGD then raiseFault .notConfigured (encode i) s
     else body s)

/-- `fin(REG)` (R95): a NaN or an infinity in the float register `r`, whose content is `w`, raises `InvalidOperand`
with the register's offset; otherwise the command goes on with the exact value. -/
def withFinite (r : Reg) (w : Word) (s : State) (k : ℚ → State) : State :=
  match val w with
  | none => raiseFault .invalidOperand ((offsetOf r).setWidth 32) s
  | some x => k x

/-- The content of slot `i` (R53). -/
def readSlot : Memory → Nat → Word
  | [], _ => unlistedSlot
  | (j, v) :: m, i => if i = j then v else readSlot m i

/-- Store `v` in slot `i`, keeping the canonical form: storing what an unlisted slot reads as removes the pair. -/
def writeSlot : Memory → Nat → Word → Memory
  | [], i, v => if v = unlistedSlot then [] else [(i, v)]
  | (j, u) :: m, i, v =>
    if i < j then (if v = unlistedSlot then (j, u) :: m else (i, v) :: (j, u) :: m)
    else if i = j then (if v = unlistedSlot then m else (i, v) :: m)
    else (j, u) :: writeSlot m i v

/-- Store `v` in every slot `0 .. n - 1` (the broadcast store of R54). -/
def fillSlots (m : Memory) (n : Nat) (v : Word) : Memory :=
  (if v = unlistedSlot then [] else (List.range n).map fun i => (i, v)) ++ m.filter fun c => n ≤ c.1

/-- The ordered list of slots `0 .. n - 1` (R14). -/
def snapshot (m : Memory) (n : Nat) : List Word := (List.range n).map (readSlot m)

/-- The sink's answer to the next flush: an input of the run, free when none is listed (R61, log entry 3). -/
def nextAnswer (s : State) : SinkAnswer :=
  match s.sinkAnswers with
  | [] => Config.sinkAnswer s.events.length
  | a :: _ => a

/-- What the strip shows after the `n`-th flush with this snapshot: the snapshot if the answer is `ok`, unspecified
slot by slot if it is `fail` (R42). -/
def displayed (n : Nat) (shot : List Word) : SinkAnswer → List Word
  | .ok => shot
  | .fail => (List.range shot.length).map (Config.tornSlot n)

/-- `emit Flush` (R61): the snapshot and `CFG.PROTO` go to the sink, the answer comes back, the event enters the
history. Nothing in the CMU itself is written (R130). -/
def emitFlush (s : State) : State :=
  let shot := snapshot s.PB (countOf s.CFG)
  { s with
    events := s.events ++ [⟨shot, protoOf s.CFG, nextAnswer s⟩]
    DISP := displayed s.events.length shot (nextAnswer s)
    sinkAnswers := s.sinkAnswers.tail }

/-- `do_flush()` (R130): one `Flush`, and `HardwareWriteFailure` if the sink answers `fail`. -/
def doFlush (s : State) : State :=
  match nextAnswer s with
  | .ok => emitFlush s
  | .fail => raiseFault .hardwareWriteFailure 0 (emitFlush s)

/-- `RAW` as it is stored in the buffer: reordered by `CFG.PERM` (R124). -/
def storedRaw (s : State) : Word := permute s.RAW (permOf s.CFG)

/-- Write `RAW` into the slot `IDX` (R128), or raise `IndexOutOfRange`; `k` goes on after the write. -/
def putRaw (s : State) (k : State → State) : State :=
  if countOf s.CFG ≤ s.IDX.toNat then raiseFault .indexOutOfRange s.IDX s
  else k { s with PB := writeSlot s.PB s.IDX.toNat (storedRaw s) }

/-- Write `RAW` into every slot (R129). -/
def fillRaw (s : State) : State :=
  { s with PB := fillSlots s.PB (countOf s.CFG) (storedRaw s) }

/-- Load `RAW` with the colour in `RGB` at intensity `INT` (R127); `k` goes on after the write. -/
def encodeRaw (s : State) (k : State → State) : State :=
  withFinite .INT s.INT s fun x => k { s with RAW := encodePixel s.RGB x (protoOf s.CFG) }

end Sys2Proof.Machine
end

