-- ==== Sys2Proof/Machine/ColorMath.lean ====
section
/-! DEFINITION. The ColorMath commands (40_colormath.md): `RGB2HSV`, `HSV2RGB`, `WHEEL`. -/

namespace Sys2Proof.Machine

/-- `RGB2HSV` (R99): `H`, `S`, `V` from `RGB`, each rounded once. -/
def execRgb2hsv (s : State) : Host.Outcome State Fault Refusal :=
  command .rgb2hsv s fun s =>
    let c := rgb2hsvQ (colourOf s.RGB)
    { s with H := rnd32 c.h, S := rnd32 c.s, V := rnd32 c.v }

/-- `HSV2RGB` (R100): the registers are checked in the order `H`, `S`, `V`. -/
def execHsv2rgb (s : State) : Host.Outcome State Fault Refusal :=
  command .hsv2rgb s fun s =>
    withFinite .H s.H s fun h =>
      withFinite .S s.S s fun sat =>
        withFinite .V s.V s fun v =>
          { s with RGB := packColour (hsv2rgbQ h sat v) }

/-- `WHEEL` (R101): `INT` is checked before `PERIOD`. -/
def execWheel (s : State) : Host.Outcome State Fault Refusal :=
  command .wheel s fun s =>
    withFinite .INT s.INT s fun v =>
      if s.PERIOD = 0 then raiseFault .invalidOperand ((offsetOf .PERIOD).setWidth 32) s
      else { s with RGB := packColour (wheelQ s.POS.toNat s.PERIOD.toNat v) }

end Sys2Proof.Machine
end

