-- ==== Sys2Proof/Machine/Control.lean ====
section
/-! DEFINITION. The control commands (43_control.md): `NOP`, `CLRERR`. -/

namespace Sys2Proof.Machine

/-- `NOP` (R170). -/
def execNop (s : State) : Host.Outcome State Fault Refusal :=
  command .nop s fun s => s

/-- `CLRERR` (R171): the one command that acts while `STATUS.ERR` = 1 (R72 step 1). -/
def execClrerr (s : State) : Host.Outcome State Fault Refusal :=
  .next (acknowledge s)

end Sys2Proof.Machine
end

