-- ==== Sys2Proof/Machine/Effects.lean ====
section
/-! DEFINITION. The per-pixel and per-frame commands of the effects (42_effects.md): `TIDX`, `SEL`, `FADE`, `WPOS`. -/

namespace Sys2Proof.Machine

/-- The travelling pixel of `cycle` at frame `frame` on `n` pixels (R151, `F` = 0). A strip of no pixels is unreachable
(R33, log entry 9). -/
def cycleIndex (frame n : Nat) : Nat := frame % n

/-- The travelling pixel of `bounce` (R151, `F` = 1): forward on even traversals, backward on odd ones. As above for a
strip of no pixels (log entry 9). -/
def bounceIndex (frame n : Nat) : Nat :=
  if (frame / n) % 2 = 0 then frame % n else n - 1 - frame % n

/-- Load `RAW` with the lit pixel or the dark one (R152). `INT` is checked in either case. -/
def selectRaw (lit : Bool) (s : State) : State :=
  withFinite .INT s.INT s fun x =>
    { s with RAW := if lit then encodePixel s.RGB x (protoOf s.CFG) else darkPixel }

/-- The wheel position of `color_cycle` (R154, `F` = 0). -/
def colorCyclePos (idx frame n : Nat) : Nat := frame % 360 + idx * 360 / n

/-- The wheel position of `rainbow_cycle` (R154, `F` = 1). -/
def rainbowPos (idx frame n : Nat) : Nat := (idx * 256 / n + frame) % 256

/-- Load `POS` with the position `f IDX FRAME COUNT` of a pixel of the strip, or raise `IndexOutOfRange` (R154). -/
def wheelPosition (f : Nat → Nat → Nat → Nat) (s : State) : State :=
  let n := countOf s.CFG
  if n ≤ s.IDX.toNat then raiseFault .indexOutOfRange s.IDX s
  else { s with POS := BitVec.ofNat 32 (f s.IDX.toNat s.FRAME.toNat n) }

/-- `TIDX` (R151). -/
def execTidx (s : State) : Host.Outcome State Fault Refusal :=
  command .tidx s fun s => { s with TGT := BitVec.ofNat 32 (cycleIndex s.FRAME.toNat (countOf s.CFG)) }

/-- `TIDX.BNC` (R151). -/
def execTidxBnc (s : State) : Host.Outcome State Fault Refusal :=
  command .tidxBnc s fun s => { s with TGT := BitVec.ofNat 32 (bounceIndex s.FRAME.toNat (countOf s.CFG)) }

/-- `SEL` (R152): lit where `IDX` = `TGT`. -/
def execSel (s : State) : Host.Outcome State Fault Refusal :=
  command .sel s fun s => selectRaw (s.IDX == s.TGT) s

/-- `SEL.INV` (R152): lit where `IDX` ≠ `TGT`. -/
def execSelInv (s : State) : Host.Outcome State Fault Refusal :=
  command .selInv s fun s => selectRaw (!(s.IDX == s.TGT)) s

/-- `FADE` (R153): step `k` of the fade-in has intensity `k/32`. -/
def execFade (s : State) : Host.Outcome State Fault Refusal :=
  command .fade s fun s => { s with INT := rnd32 (((s.FRAME.toNat % 32 : Nat) : ℚ) / 32) }

/-- `FADE.OUT` (R153): step `k` of the fade-out has intensity `(32 - k)/32`. -/
def execFadeOut (s : State) : Host.Outcome State Fault Refusal :=
  command .fadeOut s fun s => { s with INT := rnd32 (((32 - s.FRAME.toNat % 32 : Nat) : ℚ) / 32) }

/-- `WPOS` (R154), the `color_cycle` preset. -/
def execWpos (s : State) : Host.Outcome State Fault Refusal :=
  command .wpos s (wheelPosition colorCyclePos)

/-- `WPOS.RB` (R154), the `rainbow_cycle` preset. -/
def execWposRb (s : State) : Host.Outcome State Fault Refusal :=
  command .wposRb s (wheelPosition rainbowPos)

end Sys2Proof.Machine
end

