-- ==== Sys2Proof/Machine/LedDriver.lean ====
section
/-! DEFINITION. The LedDriver commands (41_leddriver.md): `INIT`, `ENC`, `PUT`, `FILL`, `FLUSH`, `SET`, `CLEAR`. -/

namespace Sys2Proof.Machine

/-- `INIT` (R120): latch a legal `CFGIN`, zero every slot of the new configuration, no flush; `InvalidConfig` with
`CFGIN` if it is illegal or a configuration is latched already. -/
def execInit (s : State) : Host.Outcome State Fault Refusal :=
  command .init s fun s =>
    if s.CFGD || !legalConfig s.npixMax s.CFGIN then raiseFault .invalidConfig s.CFGIN s
    else { s with CFG := s.CFGIN, PB := fillSlots s.PB (countOf s.CFGIN) 0x00000000, CFGD := true }

/-- `ENC` (R127). -/
def execEnc (s : State) : Host.Outcome State Fault Refusal :=
  command .enc s fun s => encodeRaw s fun s => s

/-- `PUT` (R128). -/
def execPut (s : State) : Host.Outcome State Fault Refusal :=
  command .put s fun s => putRaw s fun s => s

/-- `PUT.FL` (R128): the write, then one flush. -/
def execPutFl (s : State) : Host.Outcome State Fault Refusal :=
  command .putFl s fun s => putRaw s doFlush

/-- `FILL` (R129). -/
def execFill (s : State) : Host.Outcome State Fault Refusal :=
  command .fill s fillRaw

/-- `FILL.FL` (R129): the writes, then one flush. -/
def execFillFl (s : State) : Host.Outcome State Fault Refusal :=
  command .fillFl s fun s => doFlush (fillRaw s)

/-- `FLUSH` (R130). -/
def execFlush (s : State) : Host.Outcome State Fault Refusal :=
  command .flush s doFlush

/-- `SET` (R131): `RAW` is written before the index is checked. -/
def execSet (s : State) : Host.Outcome State Fault Refusal :=
  command .set s fun s => encodeRaw s fun s => putRaw s doFlush

/-- `SET.ALL` (R131). -/
def execSetAll (s : State) : Host.Outcome State Fault Refusal :=
  command .setAll s fun s => encodeRaw s fun s => doFlush (fillRaw s)

/-- `CLEAR` (R132): dark pixels everywhere and one flush; `RGB` and `INT` stay. -/
def execClear (s : State) : Host.Outcome State Fault Refusal :=
  command .clear s fun s =>
    doFlush { s with RAW := darkPixel, PB := fillSlots s.PB (countOf s.CFG) darkPixel }

end Sys2Proof.Machine
end

