-- ==== Sys2Proof/Machine/Dispatch.lean ====
section
/-! DEFINITION. One arm for each command (R73): which meaning it has. -/

namespace Sys2Proof.Machine

def exec (i : Instr) (s : State) : Host.Outcome State Fault Refusal :=
  match i with
  | .nop => Sys2Proof.Machine.execNop s
  | .init => Sys2Proof.Machine.execInit s
  | .clrerr => Sys2Proof.Machine.execClrerr s
  | .rgb2hsv => Sys2Proof.Machine.execRgb2hsv s
  | .hsv2rgb => Sys2Proof.Machine.execHsv2rgb s
  | .wheel => Sys2Proof.Machine.execWheel s
  | .enc => Sys2Proof.Machine.execEnc s
  | .sel => Sys2Proof.Machine.execSel s
  | .selInv => Sys2Proof.Machine.execSelInv s
  | .tidx => Sys2Proof.Machine.execTidx s
  | .tidxBnc => Sys2Proof.Machine.execTidxBnc s
  | .fade => Sys2Proof.Machine.execFade s
  | .fadeOut => Sys2Proof.Machine.execFadeOut s
  | .wpos => Sys2Proof.Machine.execWpos s
  | .wposRb => Sys2Proof.Machine.execWposRb s
  | .put => Sys2Proof.Machine.execPut s
  | .putFl => Sys2Proof.Machine.execPutFl s
  | .fill => Sys2Proof.Machine.execFill s
  | .fillFl => Sys2Proof.Machine.execFillFl s
  | .flush => Sys2Proof.Machine.execFlush s
  | .set => Sys2Proof.Machine.execSet s
  | .setAll => Sys2Proof.Machine.execSetAll s
  | .clear => Sys2Proof.Machine.execClear s

end Sys2Proof.Machine
end

