-- ==== Sys2Proof/Machine/Bus.lean ====
section
/-! DEFINITION. Bus transactions (R51, R56 to R58), the dispatch of a word written to `CMD` (R72), and platform reset
(R230). -/

namespace Sys2Proof.Machine

/-- The registers of the bus map (R51). -/
def registers : List Reg :=
  [.CMD, .STATUS, .CAUSE, .FINFO, .CFG, .CFGIN, .RGB, .H, .S, .V, .INT, .POS, .PERIOD, .IDX, .FRAME, .TGT, .RAW]

/-- The register at a byte offset; none at an unmapped or unaligned one (R51). -/
def registerAt (off : BitVec 8) : Option Reg := registers.find? fun r => offsetOf r == off

/-- What a read of a register returns (R51): `CMD` reads 0 (R37), the unused bits of `RGB`, `STATUS` and `CAUSE` read 0
(R23, R34, R35). -/
def readRegister (s : State) : Reg → Word
  | .CMD => 0
  | .STATUS => statusWord s
  | .CAUSE => s.CAUSE.setWidth 32
  | .FINFO => s.FINFO
  | .CFG => s.CFG
  | .CFGIN => s.CFGIN
  | .RGB => s.RGB.setWidth 32
  | .H => s.H
  | .S => s.S
  | .V => s.V
  | .INT => s.INT
  | .POS => s.POS
  | .PERIOD => s.PERIOD
  | .IDX => s.IDX
  | .FRAME => s.FRAME
  | .TGT => s.TGT
  | .RAW => s.RAW

/-- A word written to `CMD` (R72): a legal command runs its meaning, any other word raises `IllegalCommand` with the
word, unless a fault is recorded already. -/
def runWord (w : Word) (s : State) : Host.Outcome State Fault Refusal :=
  match decode w with
  | .ok i => exec i s
  | .error _ => .next (if s.ERR then s else raiseFault .illegalCommand w s)

/-- The CMU's answer to the host, kept for the run (log entry 2). -/
def reply (a : BusAnswer) (s : State) : State := { s with answer := some a }

/-- A write of `v` to a register (R51, R58): `CMD` answers `OKAY` whatever the command does; a read-only register
answers `ERROR` and stays; `RGB` drops bits 31:24 (R23). -/
def writeRegister (r : Reg) (v : Word) (s : State) : Host.Outcome State Fault Refusal :=
  let s' := reply (.write .okay) s
  match r with
  | .CMD => runWord v s'
  | .STATUS | .CAUSE | .FINFO | .CFG => .next (reply (.write .error) s)
  | .CFGIN => .next { s' with CFGIN := v }
  | .RGB => .next { s' with RGB := v.setWidth 24 }
  | .H => .next { s' with H := v }
  | .S => .next { s' with S := v }
  | .V => .next { s' with V := v }
  | .INT => .next { s' with INT := v }
  | .POS => .next { s' with POS := v }
  | .PERIOD => .next { s' with PERIOD := v }
  | .IDX => .next { s' with IDX := v }
  | .FRAME => .next { s' with FRAME := v }
  | .TGT => .next { s' with TGT := v }
  | .RAW => .next { s' with RAW := v }

/-- The register a transaction reaches: none if its width or alignment is illegal or its offset unmapped (R56, R58). -/
def target (t : Transaction) : Option Reg :=
  if t.wellFormed then
    match t with
    | .read _ off => registerAt off
    | .write _ off _ => registerAt off
  else none

/-- One transaction of the host, carried to its end (R20, R58). -/
def serve (t : Transaction) (s : State) : Host.Outcome State Fault Refusal :=
  match t, target t with
  | .read _ _, some r => .next (reply (.read .okay (readRegister s r)) s)
  | .read _ _, none => .next (reply (.read .error 0) s)
  | .write _ _ v, some r => writeRegister r v s
  | .write _ _ _, none => .next (reply (.write .error) s)

/-- The platform asserts reset (R230): every register takes its reset value. The capacity is fixed; the strip keeps
showing what it showed, no flush is emitted (R231); the inputs and the history are not the CMU's (log entry 10). -/
def platformReset (s : State) : State :=
  { State.reset with
    npixMax := s.npixMax
    DISP := s.DISP
    events := s.events
    sinkAnswers := s.sinkAnswers
    pending := s.pending }

/-- What one input does. A second bus master is refused (R59, log entry 11). -/
def receive (i : Input) (s : State) : Host.Outcome State Fault Refusal :=
  match i with
  | .bus t => serve t s
  | .secondMaster _ => .refused .secondMaster
  | .reset => .next (platformReset s)

end Sys2Proof.Machine
end

