-- ==== Sys2Proof/Machine/Step.lean ====
section
/-! DEFINITION. One step of the machine: the next input, carried to its end (R20). -/

namespace Sys2Proof.Machine

/-- One step (R20). With no input waiting the CMU does nothing and holds its state (R230, R236). -/
def step (s : State) : Host.Outcome State Fault Refusal :=
  match s.pending with
  | [] => .next s
  | i :: rest => receive i { s with pending := rest }

/-- The state whose next input is the host's write of the instruction's word to `CMD`: the CMU fetches no
instruction (R40, R64), a command arrives as data written to offset 0x00 (R70, R77). Log entry 1. -/
def State.withFetchWord (s : State) (nbits w : Nat) : State :=
  { s with pending := .bus (.write 4 (offsetOf .CMD) (tableWord nbits w)) :: s.pending }

end Sys2Proof.Machine
end

