-- ==== Sys2Proof/Machine/Sink.lean ====
section
/-! DEFINITION. A `Flush` seen from the sink (R55, R61): the calls it stands for and the bytes of each slot. These are
views of the event history; no command reads them. -/

namespace Sys2Proof.Machine

/-- The bytes of a slot in byte-position order 0, 1, 2 and, under FourChannelWithIntensity, 3 (R55). -/
def slotBytes (proto : Protocol) (slot : Word) : List Byte :=
  let colour := [slot.extractLsb' 16 8, slot.extractLsb' 8 8, slot.extractLsb' 0 8]
  match proto with
  | .threeChannel => colour
  | .fourChannelWithIntensity => colour ++ [slot.extractLsb' 24 8]

/-- The source's capability of a sink (R61). -/
inductive SinkCall where
  | setRaw (index : Nat) (encoded : List Byte)
  | flush
deriving DecidableEq, Repr

/-- One `Flush(s)` stands for `set_raw(i, s[i])` in ascending order followed by one `flush()` (R61). -/
def sinkCalls (e : FlushEvent) : List SinkCall :=
  e.snapshot.zipIdx.map (fun p => .setRaw p.2 (slotBytes e.proto p.1)) ++ [.flush]

end Sys2Proof.Machine
end

