-- ==== Sys2Proof/Safety.lean ====
section
/-! DEFINITION. What a good state is, in the terms the statements use: the facts the spec states of every reachable
state, and what a step may not do. -/

namespace Sys2Proof

open Machine

/-- The causes a recorded fault can have (R201): code 3 is never raised (R215). -/
def raisedCodes : List (BitVec 8) := [1, 2, 4, 5, 6, 7]

/-- The invariant of every reachable state. -/
structure StateInv (s : State) : Prop where
  /-- the pixel memory is in canonical form -/
  memoryWf : Memory.wf s.PB = true
  /-- only the first `CFG.COUNT` slots are ever written (R38) -/
  slotsInside : ∀ c ∈ s.PB, c.1 < countOf s.CFG
  /-- `CAUSE` and `FINFO` are 0 whenever `STATUS.ERR` = 0 (R35, R36) -/
  noFault : s.ERR = false → s.CAUSE = 0 ∧ s.FINFO = 0
  /-- a recorded fault has a cause that the CMU raises (R201) -/
  faultCode : s.ERR = true → s.CAUSE ∈ raisedCodes
  /-- `CFG` is 0 until an `INIT` succeeds (R33) -/
  unconfigured : s.CFGD = false → s.CFG = 0
  /-- while `STATUS.CFGD` = 1 the fields of `CFG` are legal values (R33) -/
  configured : s.CFGD = true → legalConfig s.npixMax s.CFG = true
  /-- `1 <= NPIX_MAX <= 65535` (R6) -/
  capacity : 1 ≤ s.npixMax ∧ s.npixMax ≤ 65535
  /-- after a flush answered `ok` the strip shows its snapshot, until the next flush (R42) -/
  displaysLastFlush : ∀ e, s.events.getLast? = some e → e.answer = .ok → s.DISP = e.snapshot

/-- The next input is the one thing a model must refuse, a transaction of a second bus master (R59). -/
def refusedInput (s : State) : Bool :=
  match s.pending with
  | .secondMaster _ :: _ => true
  | _ => false

/-! The shapes of an effect on the pixel buffer and on the sink, read slot by slot. -/

/-- Slot `i` holds `v` and every other slot reads as before. -/
def SlotWritten (m m' : Memory) (i : Nat) (v : Word) : Prop :=
  readSlot m' i = v ∧ ∀ j, j ≠ i → readSlot m' j = readSlot m j

/-- The slots `0 .. n - 1` hold `v` and every other slot reads as before. -/
def SlotsFilled (m m' : Memory) (n : Nat) (v : Word) : Prop :=
  (∀ j, j < n → readSlot m' j = v) ∧ ∀ j, n ≤ j → readSlot m' j = readSlot m j

/-- The ordered content of the strip's slots under the configuration of `t` (R14). -/
def frameOf (t : State) : List Word := (List.range (countOf t.CFG)).map (readSlot t.PB)

/-- Between `s` and `t` one `Flush` of the buffer of `t` was emitted and answered `a` (R61): the history has one more
event, and after `ok` the strip shows the snapshot (R42). Two clauses are the model's and not a rule's: a listed answer
is used up by the flush (DESIGN CHOICE, log entry 3), and after `fail` the strip still shows one slot for each pixel
(DEDUCED from R42's "slot by slot", log entry 4). -/
def Flushed (s t : State) (a : SinkAnswer) : Prop :=
  t.events = s.events ++ [⟨frameOf t, protoOf t.CFG, a⟩] ∧
  t.sinkAnswers = s.sinkAnswers.tail ∧
  (a = .ok → t.DISP = frameOf t) ∧
  (a = .fail → t.DISP.length = countOf t.CFG)

end Sys2Proof
end

