-- ==== Sys2Proof/Certificates/Slice0/Obligations.lean ====
section
/-! DEFINITION. The statements for the provers. Each formalises rules R<n> of spec/; a docstring names the rule, and the
log entry where a clause rests on the model's choice. -/

open Sys2Proof Sys2Proof.Machine

/-! ## Encoding -/

/-- R73: the table of command words, with the mnemonics. A word is a command exactly when the table lists it. -/
def Obligations.DecodeReadsTheOpcodeMap : Prop :=
  ∀ (w : Word) (i : Instr) (name : String),
    (decode w = .ok i ∧ mnemonic i = name) ↔
      (w, i, name) ∈
        ([(0x00000000, .nop, "NOP"), (0x00000001, .init, "INIT"), (0x00000002, .clrerr, "CLRERR"),
          (0x00000010, .rgb2hsv, "RGB2HSV"), (0x00000011, .hsv2rgb, "HSV2RGB"), (0x00000012, .wheel, "WHEEL"),
          (0x00000020, .enc, "ENC"), (0x00000021, .sel, "SEL"), (0x00000121, .selInv, "SEL.INV"),
          (0x00000022, .tidx, "TIDX"), (0x00000122, .tidxBnc, "TIDX.BNC"), (0x00000023, .fade, "FADE"),
          (0x00000123, .fadeOut, "FADE.OUT"), (0x00000024, .wpos, "WPOS"), (0x00000124, .wposRb, "WPOS.RB"),
          (0x00000030, .put, "PUT"), (0x00000130, .putFl, "PUT.FL"), (0x00000031, .fill, "FILL"),
          (0x00000131, .fillFl, "FILL.FL"), (0x00000032, .flush, "FLUSH"), (0x00000033, .set, "SET"),
          (0x00000133, .setAll, "SET.ALL"), (0x00000034, .clear, "CLEAR")] : List (Word × Instr × String))

/-- Decode and encode agree on all of the 2^32 words and all commands (R70 to R73): every well-formed command's word
decodes to it, and no other word does. -/
def Obligations.DecodeInvertsEncode : Prop :=
  ∀ (w : Word) (i : Instr), i.wellFormed = true → (decode w = .ok i ↔ w = encode i)

/-- A few words written out from format C (R71) and the opcode map (R73). A sanity statement. -/
def Obligations.WrittenWordsDecode : Prop :=
  decode 0b00000000000000000000000000010000#32 = .ok .rgb2hsv ∧
  decode 0b00000000000000000000000100110011#32 = .ok .setAll ∧
  decode 0b00000000000000000000000100100010#32 = .ok .tidxBnc ∧
  decode 0b00000000000000000000000000000010#32 = .ok .clrerr ∧
  decode 0b00000000000000000000000100000010#32 = .error .flagNotAllowed ∧
  decode 0b00000000000000000000001000000000#32 = .error .reservedBits ∧
  decode 0b00000000000000000000000000110101#32 = .error .unknownOpcode

/-! ## The step and dispatch -/

/-- A write of a command's word to `CMD` runs exactly that command, on the state in which the input is consumed and the
transaction is answered `OKAY` (R20, R58, R72 step 4). That the inputs stand in a list is the model's choice (log
entries 1 and 2). -/
def Obligations.StepRunsTheDecodedCommand : Prop :=
  ∀ (s : State) (w : Word) (i : Instr) (rest : List Input),
    s.pending = .bus (.write 4 0x00 w) :: rest → decode w = .ok i →
      step s = exec i { s with pending := rest, answer := some (.write .okay) }

/-- R75: a word with a reserved bit, an unused opcode, or the flag on a command without one is illegal; with no fault
recorded it raises `IllegalCommand` (code 5) with the word in `FINFO` and changes nothing else. That the write stands in
a list and its answer in the state is the model's choice (log entries 1 and 2). -/
def Obligations.IllegalWordsRaiseIllegalCommand : Prop :=
  ∀ (s : State) (w : Word) (rest : List Input),
    s.pending = .bus (.write 4 0x00 w) :: rest → s.ERR = false →
    (w.extractLsb' 9 23 ≠ 0 ∨
      w.extractLsb' 0 8 ∉
        ([0x00, 0x01, 0x02, 0x10, 0x11, 0x12, 0x20, 0x21, 0x22, 0x23, 0x24, 0x30, 0x31, 0x32, 0x33, 0x34] :
          List (BitVec 8)) ∨
      (w.getLsbD 8 = true ∧
        w.extractLsb' 0 8 ∈ ([0x00, 0x01, 0x02, 0x10, 0x11, 0x12, 0x20, 0x32, 0x34] : List (BitVec 8)))) →
      step s = .next { s with
        pending := rest, answer := some (.write .okay), ERR := true, CAUSE := 5, FINFO := w }

/-- R204: while a fault is recorded every word but `CLRERR` is ignored; `CLRERR` acknowledges it (R171). The form of the
step is the model's (log entries 1 and 2). -/
def Obligations.RecordedFaultIgnoresCommands : Prop :=
  ∀ (s : State) (w : Word) (rest : List Input),
    s.pending = .bus (.write 4 0x00 w) :: rest → s.ERR = true →
      (w ≠ 0x00000002 → step s = .next { s with pending := rest, answer := some (.write .okay) }) ∧
      (w = 0x00000002 →
        step s = .next { s with
          pending := rest, answer := some (.write .okay), ERR := false, CAUSE := 0, FINFO := 0 })

/-- R72 steps 1 and 3 on the meanings: a command that needs a configuration raises `NotConfigured` (code 7) with its
word while there is none; every command but `CLRERR` changes nothing while a fault is recorded. -/
def Obligations.DispatchGatesCommands : Prop :=
  (∀ (s : State) (i : Instr), i ≠ .clrerr → s.ERR = true → exec i s = .next s) ∧
  (∀ (s : State) (i : Instr), s.ERR = false → s.CFGD = false →
    i ∈ ([.enc, .sel, .selInv, .tidx, .tidxBnc, .wpos, .wposRb, .put, .putFl, .fill, .fillFl, .flush, .set, .setAll,
      .clear] : List Instr) →
      exec i s = .next { s with ERR := true, CAUSE := 7, FINFO := encode i })

/-! ## Control commands -/

/-- R170: `NOP` changes nothing, in any state. -/
def Obligations.NopChangesNothing : Prop :=
  encode .nop = 0x00000000 ∧ ∀ s : State, exec .nop s = .next s

/-- R171: `CLRERR` clears `STATUS.ERR`, `CAUSE` and `FINFO` in any state, and changes nothing else; it is exactly the word
0x00000002, and the only command that acts while a fault is recorded. -/
def Obligations.ClrerrClearsTheRecordedFault : Prop :=
  (∀ w : Word, decode w = .ok .clrerr ↔ w = 0x00000002) ∧
  (∀ s : State, exec .clrerr s = .next { s with ERR := false, CAUSE := 0, FINFO := 0 }) ∧
  (∀ (i : Instr) (s : State), s.ERR = true → i ≠ .clrerr → exec i s = .next s)

/-! ## ColorMath -/

/-- R99: `RGB2HSV` writes `H`, `S`, `V`, each rounded once from the exact value, needs no configuration and never
faults. -/
def Obligations.Rgb2hsvWritesTheRoundedHsv : Prop :=
  encode .rgb2hsv = 0x00000010 ∧
  ∀ s : State, s.ERR = false →
    exec .rgb2hsv s = .next { s with
      H := rnd32 (rgb2hsvQ (colourOf s.RGB)).h
      S := rnd32 (rgb2hsvQ (colourOf s.RGB)).s
      V := rnd32 (rgb2hsvQ (colourOf s.RGB)).v }

/-- R100: `HSV2RGB` checks `H`, then `S`, then `V`, faults with the offset of the first that is no number, and otherwise
writes the converted colour to `RGB`. -/
def Obligations.Hsv2rgbChecksThenConverts : Prop :=
  encode .hsv2rgb = 0x00000011 ∧
  ∀ s : State, s.ERR = false →
    (val s.H = none → exec .hsv2rgb s = .next { s with ERR := true, CAUSE := 6, FINFO := 0x1C }) ∧
    (∀ h, val s.H = some h → val s.S = none →
      exec .hsv2rgb s = .next { s with ERR := true, CAUSE := 6, FINFO := 0x20 }) ∧
    (∀ h sat, val s.H = some h → val s.S = some sat → val s.V = none →
      exec .hsv2rgb s = .next { s with ERR := true, CAUSE := 6, FINFO := 0x24 }) ∧
    (∀ h sat v, val s.H = some h → val s.S = some sat → val s.V = some v →
      exec .hsv2rgb s = .next { s with
        RGB := BitVec.ofNat 8 (hsv2rgbQ h sat v).r ++ BitVec.ofNat 8 (hsv2rgbQ h sat v).g ++
          BitVec.ofNat 8 (hsv2rgbQ h sat v).b })

/-- R101: `WHEEL` checks `INT`, then `PERIOD`, and otherwise writes the colour of hue `(POS mod PERIOD)/PERIOD`,
saturation 1 and value `INT` to `RGB`. -/
def Obligations.WheelChecksThenConverts : Prop :=
  encode .wheel = 0x00000012 ∧
  ∀ s : State, s.ERR = false →
    (val s.INT = none → exec .wheel s = .next { s with ERR := true, CAUSE := 6, FINFO := 0x28 }) ∧
    (∀ v, val s.INT = some v → s.PERIOD = 0 →
      exec .wheel s = .next { s with ERR := true, CAUSE := 6, FINFO := 0x30 }) ∧
    (∀ v, val s.INT = some v → s.PERIOD ≠ 0 →
      ∃ c, c = hsv2rgbQ (((s.POS.toNat % s.PERIOD.toNat : Nat) : ℚ) / s.PERIOD.toNat) 1 v ∧
        exec .wheel s = .next { s with
          RGB := BitVec.ofNat 8 c.r ++ BitVec.ofNat 8 c.g ++ BitVec.ofNat 8 c.b })

/-- R91: the number a binary32 pattern denotes, by its sign, exponent and fraction; none for an infinity or a NaN. -/
def Obligations.FloatPatternsDenoteTheirValues : Prop :=
  ∀ (sg : BitVec 1) (ex : BitVec 8) (fr : BitVec 23),
    (ex.toNat = 255 → val (sg ++ ex ++ fr) = none) ∧
    (ex.toNat = 0 → val (sg ++ ex ++ fr) = some ((-1) ^ sg.toNat * fr.toNat * (2 : ℚ) ^ (-149 : Int))) ∧
    (1 ≤ ex.toNat → ex.toNat ≤ 254 →
      val (sg ++ ex ++ fr) = some ((-1) ^ sg.toNat * (2 ^ 23 + fr.toNat) * (2 : ℚ) ^ ((ex.toNat : Int) - 150)))

/-- R93: `rhe` rounds to a nearest integer, and to the even one of two. -/
def Obligations.RheRoundsHalfToEven : Prop :=
  ∀ (q : ℚ) (n : Int),
    rhe q = n ↔ (|q - n| < 1 / 2 ∨ (|q - n| = 1 / 2 ∧ n % 2 = 0))

/-- R92: `rnd32 q` is a finite nonnegative pattern, no pattern is nearer to `q`, and of two equally near ones it has the
even fraction. The bound keeps the result finite; every `q` the commands round lies in [0, 1]. -/
def Obligations.Rnd32IsNearestTiesToEven : Prop :=
  ∀ q : ℚ, 0 ≤ q → q ≤ 2 ^ 127 →
    (rnd32 q).getLsbD 31 = false ∧
    ∃ x, val (rnd32 q) = some x ∧
      ∀ (w : Word) (y : ℚ), val w = some y →
        |x - q| ≤ |y - q| ∧ (|x - q| = |y - q| → y = x ∨ (rnd32 q).getLsbD 0 = false)

/-- R96: value, saturation and hue of a colour in exact arithmetic, the hue by the branch of a maximal channel, up to
whole turns, in [0, 1). -/
def Obligations.RgbToHsvFollowsTheHueBranches : Prop :=
  ∀ (r g b mx mn : Nat), r ≤ 255 → g ≤ 255 → b ≤ 255 → mx = max r (max g b) → mn = min r (min g b) →
    ∃ h s v, rgb2hsvQ ⟨r, g, b⟩ = ⟨h, s, v⟩ ∧
      0 ≤ h ∧ h < 1 ∧
      v = mx / 255 ∧
      (mx = 0 → s = 0) ∧ (mx ≠ 0 → s = ((mx : ℚ) - mn) / mx) ∧
      (mx = mn → h = 0) ∧
      (mx ≠ mn → mx = r →
        6 * h = ((g : ℚ) - b) / (mx - mn) + (if g < b then 6 else 0)) ∧
      (mx ≠ mn → mx = g → 6 * h = ((b : ℚ) - r) / (mx - mn) + 2) ∧
      (mx ≠ mn → mx = b → 6 * h = ((r : ℚ) - g) / (mx - mn) + 4)

/-- R103: the ranges of the exact results of `RGB2HSV` and of the patterns it writes. -/
def Obligations.HsvResultsStayInRange : Prop :=
  rnd32 (1529 / 1530) = 0x3F7FD52A ∧
  (∀ q : ℚ, 0 ≤ q → q ≤ 1 → ∃ x, val (rnd32 q) = some x ∧ 0 ≤ x ∧ x ≤ 1) ∧
  ∀ (r g b : Nat), r ≤ 255 → g ≤ 255 → b ≤ 255 →
    ∃ h s v, rgb2hsvQ ⟨r, g, b⟩ = ⟨h, s, v⟩ ∧
      0 ≤ h ∧ h ≤ 1529 / 1530 ∧ 0 ≤ s ∧ s ≤ 1 ∧ 0 ≤ v ∧ v ≤ 1 ∧
      (s = 1 ↔ min r (min g b) = 0 ∧ 0 < max r (max g b)) ∧
      (v = 1 ↔ max r (max g b) = 255) ∧
      (∃ x, val (rnd32 h) = some x ∧ 0 ≤ x ∧ x < 1) ∧
      (∃ x, val (rnd32 s) = some x ∧ 0 ≤ x ∧ x ≤ 1) ∧
      (∃ x, val (rnd32 v) = some x ∧ 0 ≤ x ∧ x ≤ 1)

/-- R106: where two channels share the maximum the hue is 1/6, 5/6 or 1/2, and 0 where all three do. -/
def Obligations.SharedMaximumFixesTheHue : Prop :=
  ∀ a b : Nat, a ≤ 255 → b < a →
    (rgb2hsvQ ⟨a, a, b⟩).h = 1 / 6 ∧ (rgb2hsvQ ⟨a, b, a⟩).h = 5 / 6 ∧ (rgb2hsvQ ⟨b, a, a⟩).h = 1 / 2 ∧
      (rgb2hsvQ ⟨a, a, a⟩).h = 0

/-- R94: `clamp8` limits an integer to 0 to 255, and a channel is the clamped rounding of 255 times its component. R97: the
six orderings of `v`, `p`, `q`, `t`, for a hue in sector `i` at fraction `f`, any number `n` of whole turns away, and any
rational saturation and value; every channel is in 0 to 255. -/
def Obligations.HsvToRgbFollowsTheSectorTable : Prop :=
  (∀ n : Int, (n < 0 → clamp8 n = 0) ∧ (255 < n → clamp8 n = 255) ∧ (0 ≤ n → n ≤ 255 → (clamp8 n : Int) = n)) ∧
  (∀ x : ℚ,
    (rhe (255 * x) < 0 → chan x = 0) ∧ (255 < rhe (255 * x) → chan x = 255) ∧
    (0 ≤ rhe (255 * x) → rhe (255 * x) ≤ 255 → (chan x : Int) = rhe (255 * x))) ∧
  (∀ h s v : ℚ, (hsv2rgbQ h s v).r ≤ 255 ∧ (hsv2rgbQ h s v).g ≤ 255 ∧ (hsv2rgbQ h s v).b ≤ 255) ∧
  ∀ (n : Int) (f s v p q t : ℚ), 0 ≤ f → f < 1 →
    p = v * (1 - s) → q = v * (1 - f * s) → t = v * (1 - (1 - f) * s) →
      hsv2rgbQ (n + (0 + f) / 6) s v = ⟨chan v, chan t, chan p⟩ ∧
      hsv2rgbQ (n + (1 + f) / 6) s v = ⟨chan q, chan v, chan p⟩ ∧
      hsv2rgbQ (n + (2 + f) / 6) s v = ⟨chan p, chan v, chan t⟩ ∧
      hsv2rgbQ (n + (3 + f) / 6) s v = ⟨chan p, chan q, chan v⟩ ∧
      hsv2rgbQ (n + (4 + f) / 6) s v = ⟨chan t, chan p, chan v⟩ ∧
      hsv2rgbQ (n + (5 + f) / 6) s v = ⟨chan v, chan p, chan q⟩

/-- R102 (a): in exact arithmetic converting a colour to HSV and back gives the colour. -/
def Obligations.ExactRoundTripRestoresTheColour : Prop :=
  ∀ (r g b : Nat), r ≤ 255 → g ≤ 255 → b ≤ 255 →
    hsv2rgbQ (rgb2hsvQ ⟨r, g, b⟩).h (rgb2hsvQ ⟨r, g, b⟩).s (rgb2hsvQ ⟨r, g, b⟩).v = ⟨r, g, b⟩

/-- R102 (b): `RGB2HSV` then `HSV2RGB`, through the binary32 registers, restores `RGB` for every colour. -/
def Obligations.RegisterRoundTripRestoresRgb : Prop :=
  ∀ s : State, s.ERR = false →
    ∃ t, exec .rgb2hsv s = .next t ∧ exec .hsv2rgb t = .next t

/-- R104: the wheel, and `WHEEL`, give the same colour any number of periods further on. -/
def Obligations.WheelWrapsAtThePeriod : Prop :=
  (∀ (pos P n : Nat) (v : ℚ), 1 ≤ P → wheelQ (pos + n * P) P v = wheelQ pos P v) ∧
  ∀ (s t : State) (n : Nat) (pos' : Word), exec .wheel s = .next t →
    pos'.toNat = s.POS.toNat + n * s.PERIOD.toNat →
      exec .wheel { s with POS := pos' } = .next { t with POS := pos' }

/-! ## The LED driver -/

/-- R120: `INIT` latches a legal `CFGIN` and zeroes every slot of the strip, and raises `InvalidConfig` (code 1) with
`CFGIN` in each of its four cases, with nothing written. -/
def Obligations.InitLatchesOnlyALegalConfiguration : Prop :=
  encode .init = 0x00000001 ∧
  ∀ s : State, s.ERR = false →
    ((s.CFGD = true ∨ s.CFGIN.extractLsb' 20 12 ≠ 0 ∨ 5 < (s.CFGIN.extractLsb' 17 3).toNat ∨
        s.CFGIN.extractLsb' 0 16 = 0 ∨ s.npixMax < (s.CFGIN.extractLsb' 0 16).toNat) →
      exec .init s = .next { s with ERR := true, CAUSE := 1, FINFO := s.CFGIN }) ∧
    (s.CFGD = false → s.CFGIN.extractLsb' 20 12 = 0 → (s.CFGIN.extractLsb' 17 3).toNat ≤ 5 →
      s.CFGIN.extractLsb' 0 16 ≠ 0 → (s.CFGIN.extractLsb' 0 16).toNat ≤ s.npixMax →
      ∃ t, exec .init s = .next t ∧ t = { s with CFG := s.CFGIN, CFGD := true, PB := t.PB } ∧
        SlotsFilled s.PB t.PB (s.CFGIN.extractLsb' 0 16).toNat 0x00000000)

/-- R125: the three-channel scaler in closed form: every channel is scaled so that the largest becomes `chan x`, black
becomes a grey, and an intensity of 1 or more leaves the colour (R121). -/
def Obligations.Enc3ScalesToTheIntensity : Prop :=
  ∀ (r g b mx : Nat) (x : ℚ), r ≤ 255 → g ≤ 255 → b ≤ 255 → mx = max r (max g b) →
    (1 ≤ x → enc3 ⟨r, g, b⟩ x = ⟨r, g, b⟩) ∧
    (x < 1 → mx = 0 → enc3 ⟨r, g, b⟩ x = ⟨chan x, chan x, chan x⟩) ∧
    (x < 1 → mx ≠ 0 → enc3 ⟨r, g, b⟩ x = ⟨chan (x * r / mx), chan (x * g / mx), chan (x * b / mx)⟩)

/-- R122: the quantiser is the ceiling of `31 x`, saturated: field `k` strictly between 0 and 31 exactly for
`(k - 1)/31 < x <= k/31`. -/
def Obligations.Enc4IsTheSaturatedCeiling : Prop :=
  ∀ x : ℚ,
    (enc4 x = 0 ↔ x ≤ 0) ∧ (enc4 x = 31 ↔ 30 / 31 < x) ∧
    ∀ k : Nat, 1 ≤ k → k ≤ 30 → (enc4 x = k ↔ ((k : ℚ) - 1) / 31 < x ∧ x ≤ k / 31)

/-- R123 with the layout of R31: ThreeChannel has the scaled channels and a zero fourth byte, FourChannelWithIntensity
keeps the colour and holds the quantised intensity in bits 28:24. -/
def Obligations.EncodedPixelHasTheRawLayout : Prop :=
  ∀ (rgb : BitVec 24) (x : ℚ) (w : Word),
    (w = encodePixel rgb x .threeChannel →
      w.extractLsb' 24 8 = 0 ∧
      (⟨(w.extractLsb' 16 8).toNat, (w.extractLsb' 8 8).toNat, (w.extractLsb' 0 8).toNat⟩ : Colour) =
        enc3 ⟨(rgb.extractLsb' 16 8).toNat, (rgb.extractLsb' 8 8).toNat, (rgb.extractLsb' 0 8).toNat⟩ x) ∧
    (w = encodePixel rgb x .fourChannelWithIntensity →
      w.extractLsb' 0 24 = rgb ∧ (w.extractLsb' 24 5).toNat = enc4 x ∧ w.extractLsb' 29 3 = 0)

/-- R124: the six reorders of the colour bytes; the top byte stays. (`PERM` 6 and 7 are not permutations.) -/
def Obligations.PermuteReordersTheColourBytes : Prop :=
  ∀ top c0 c1 c2 : BitVec 8,
    permute (top ++ c0 ++ c1 ++ c2) 0 = top ++ c0 ++ c1 ++ c2 ∧
    permute (top ++ c0 ++ c1 ++ c2) 1 = top ++ c0 ++ c2 ++ c1 ∧
    permute (top ++ c0 ++ c1 ++ c2) 2 = top ++ c1 ++ c0 ++ c2 ∧
    permute (top ++ c0 ++ c1 ++ c2) 3 = top ++ c1 ++ c2 ++ c0 ∧
    permute (top ++ c0 ++ c1 ++ c2) 4 = top ++ c2 ++ c0 ++ c1 ∧
    permute (top ++ c0 ++ c1 ++ c2) 5 = top ++ c2 ++ c1 ++ c0 ∧
    ∀ perm, permute 0 perm = 0

/-- R127: `ENC` writes `RAW` with the encoded colour, or faults with nothing written. The protocol is bit 16 of `CFG`, 0
for ThreeChannel and 1 for FourChannelWithIntensity (R32). -/
def Obligations.EncWritesTheEncodedPixel : Prop :=
  encode .enc = 0x00000020 ∧
  ∀ s : State, s.ERR = false →
    (s.CFGD = false → exec .enc s = .next { s with ERR := true, CAUSE := 7, FINFO := 0x00000020 }) ∧
    (s.CFGD = true → val s.INT = none →
      exec .enc s = .next { s with ERR := true, CAUSE := 6, FINFO := 0x28 }) ∧
    (∀ x, s.CFGD = true → val s.INT = some x →
      (s.CFG.getLsbD 16 = false → exec .enc s = .next { s with RAW := encodePixel s.RGB x .threeChannel }) ∧
      (s.CFG.getLsbD 16 = true → exec .enc s = .next { s with RAW := encodePixel s.RGB x .fourChannelWithIntensity }))

/-- R128, `PUT`: one slot of the strip is written with the reordered `RAW`; an index outside the strip faults with
nothing written. The count is bits 15:0 of `CFG`, the permutation bits 19:17 (R32), and the operand forms read just
these. The premise is the memory's canonical form, which every step keeps. -/
def Obligations.PutWritesOneSlot : Prop :=
  (∀ w : Word,
    countOf w = (w.extractLsb' 0 16).toNat ∧ permOf w = (w.extractLsb' 17 3).toNat ∧
    (protoOf w = .threeChannel ↔ w.getLsbD 16 = false) ∧
    (protoOf w = .fourChannelWithIntensity ↔ w.getLsbD 16 = true)) ∧
  ∀ s : State, s.ERR = false → Memory.wf s.PB = true →
    (s.CFGD = false → exec .put s = .next { s with ERR := true, CAUSE := 7, FINFO := 0x00000030 }) ∧
    (s.CFGD = true → (s.CFG.extractLsb' 0 16).toNat ≤ s.IDX.toNat →
      exec .put s = .next { s with ERR := true, CAUSE := 2, FINFO := s.IDX }) ∧
    (s.CFGD = true → s.IDX.toNat < (s.CFG.extractLsb' 0 16).toNat →
      ∃ t, exec .put s = .next t ∧ t = { s with PB := t.PB } ∧
        SlotWritten s.PB t.PB s.IDX.toNat (permute s.RAW (s.CFG.extractLsb' 17 3).toNat))

/-- R128, `PUT.FL`: as `PUT`, then one flush; a failed flush leaves the slot written and raises
`HardwareWriteFailure` (R210). The used-up answer (log entry 3) and the number of slots the strip shows after `fail` (log
entry 4) are the model's choices. -/
def Obligations.PutFlWritesOneSlotAndFlushes : Prop :=
  ∀ s : State, s.ERR = false → Memory.wf s.PB = true →
    (s.CFGD = false → exec .putFl s = .next { s with ERR := true, CAUSE := 7, FINFO := 0x00000130 }) ∧
    (s.CFGD = true → countOf s.CFG ≤ s.IDX.toNat →
      exec .putFl s = .next { s with ERR := true, CAUSE := 2, FINFO := s.IDX }) ∧
    (s.CFGD = true → s.IDX.toNat < countOf s.CFG → nextAnswer s = .ok →
      ∃ t, exec .putFl s = .next t ∧
        t = { s with PB := t.PB, events := t.events, DISP := t.DISP, sinkAnswers := t.sinkAnswers } ∧
        SlotWritten s.PB t.PB s.IDX.toNat (permute s.RAW (permOf s.CFG)) ∧ Flushed s t .ok) ∧
    (s.CFGD = true → s.IDX.toNat < countOf s.CFG → nextAnswer s = .fail →
      ∃ t, exec .putFl s = .next t ∧
        t = { s with
          PB := t.PB, events := t.events, DISP := t.DISP, sinkAnswers := t.sinkAnswers
          ERR := true, CAUSE := 4, FINFO := 0 } ∧
        SlotWritten s.PB t.PB s.IDX.toNat (permute s.RAW (permOf s.CFG)) ∧ Flushed s t .fail)

/-- R129: `FILL` writes every slot of the strip with the reordered `RAW`; `FILL.FL` then flushes, and a failed flush
leaves the slots written. The used-up answer (log entry 3) and the number of slots the strip shows after `fail` (log
entry 4) are the model's choices. -/
def Obligations.FillWritesEverySlot : Prop :=
  ∀ s : State, s.ERR = false →
    (s.CFGD = false →
      exec .fill s = .next { s with ERR := true, CAUSE := 7, FINFO := 0x00000031 } ∧
      exec .fillFl s = .next { s with ERR := true, CAUSE := 7, FINFO := 0x00000131 }) ∧
    (s.CFGD = true →
      ∃ t, exec .fill s = .next t ∧ t = { s with PB := t.PB } ∧
        SlotsFilled s.PB t.PB (countOf s.CFG) (permute s.RAW (permOf s.CFG))) ∧
    (s.CFGD = true → nextAnswer s = .ok →
      ∃ t, exec .fillFl s = .next t ∧
        t = { s with PB := t.PB, events := t.events, DISP := t.DISP, sinkAnswers := t.sinkAnswers } ∧
        SlotsFilled s.PB t.PB (countOf s.CFG) (permute s.RAW (permOf s.CFG)) ∧ Flushed s t .ok) ∧
    (s.CFGD = true → nextAnswer s = .fail →
      ∃ t, exec .fillFl s = .next t ∧
        t = { s with
          PB := t.PB, events := t.events, DISP := t.DISP, sinkAnswers := t.sinkAnswers
          ERR := true, CAUSE := 4, FINFO := 0 } ∧
        SlotsFilled s.PB t.PB (countOf s.CFG) (permute s.RAW (permOf s.CFG)) ∧ Flushed s t .fail)

/-- R130: `FLUSH` emits one event with the buffer as it stands and writes nothing in the CMU; `fail` raises
`HardwareWriteFailure` (code 4) with `FINFO` 0. The used-up answer (log entry 3) and the number of slots the strip shows
after `fail` (log entry 4) are the model's choices. -/
def Obligations.FlushPushesTheBuffer : Prop :=
  encode .flush = 0x00000032 ∧
  ∀ s : State, s.ERR = false →
    (s.CFGD = false → exec .flush s = .next { s with ERR := true, CAUSE := 7, FINFO := 0x00000032 }) ∧
    (s.CFGD = true → nextAnswer s = .ok →
      ∃ t, exec .flush s = .next t ∧
        t = { s with events := t.events, DISP := t.DISP, sinkAnswers := t.sinkAnswers } ∧ Flushed s t .ok) ∧
    (s.CFGD = true → nextAnswer s = .fail →
      ∃ t, exec .flush s = .next t ∧
        t = { s with
          events := t.events, DISP := t.DISP, sinkAnswers := t.sinkAnswers
          ERR := true, CAUSE := 4, FINFO := 0 } ∧ Flushed s t .fail)

/-- R131, `SET`: the encoded colour goes to `RAW` and, reordered, to one slot, then one flush; the index is checked after
`RAW` is written. The used-up answer (log entry 3) and the number of slots the strip shows after `fail` (log entry 4) are
the model's choices. -/
def Obligations.SetEncodesStoresAndFlushes : Prop :=
  ∀ s : State, s.ERR = false → Memory.wf s.PB = true →
    (s.CFGD = false → exec .set s = .next { s with ERR := true, CAUSE := 7, FINFO := 0x00000033 }) ∧
    (s.CFGD = true → val s.INT = none →
      exec .set s = .next { s with ERR := true, CAUSE := 6, FINFO := 0x28 }) ∧
    (∀ x raw, s.CFGD = true → val s.INT = some x → raw = encodePixel s.RGB x (protoOf s.CFG) →
      (countOf s.CFG ≤ s.IDX.toNat →
        exec .set s = .next { s with RAW := raw, ERR := true, CAUSE := 2, FINFO := s.IDX }) ∧
      (s.IDX.toNat < countOf s.CFG → nextAnswer s = .ok →
        ∃ t, exec .set s = .next t ∧
          t = { s with RAW := raw, PB := t.PB, events := t.events, DISP := t.DISP, sinkAnswers := t.sinkAnswers } ∧
          SlotWritten s.PB t.PB s.IDX.toNat (permute raw (permOf s.CFG)) ∧ Flushed s t .ok) ∧
      (s.IDX.toNat < countOf s.CFG → nextAnswer s = .fail →
        ∃ t, exec .set s = .next t ∧
          t = { s with
            RAW := raw, PB := t.PB, events := t.events, DISP := t.DISP, sinkAnswers := t.sinkAnswers
            ERR := true, CAUSE := 4, FINFO := 0 } ∧
          SlotWritten s.PB t.PB s.IDX.toNat (permute raw (permOf s.CFG)) ∧ Flushed s t .fail))

/-- R131, `SET.ALL`: as `SET` on every slot, with no index. The used-up answer (log entry 3) and the number of slots the
strip shows after `fail` (log entry 4) are the model's choices. -/
def Obligations.SetAllEncodesStoresAndFlushes : Prop :=
  ∀ s : State, s.ERR = false →
    (s.CFGD = false → exec .setAll s = .next { s with ERR := true, CAUSE := 7, FINFO := 0x00000133 }) ∧
    (s.CFGD = true → val s.INT = none →
      exec .setAll s = .next { s with ERR := true, CAUSE := 6, FINFO := 0x28 }) ∧
    (∀ x raw, s.CFGD = true → val s.INT = some x → raw = encodePixel s.RGB x (protoOf s.CFG) →
      (nextAnswer s = .ok →
        ∃ t, exec .setAll s = .next t ∧
          t = { s with RAW := raw, PB := t.PB, events := t.events, DISP := t.DISP, sinkAnswers := t.sinkAnswers } ∧
          SlotsFilled s.PB t.PB (countOf s.CFG) (permute raw (permOf s.CFG)) ∧ Flushed s t .ok) ∧
      (nextAnswer s = .fail →
        ∃ t, exec .setAll s = .next t ∧
          t = { s with
            RAW := raw, PB := t.PB, events := t.events, DISP := t.DISP, sinkAnswers := t.sinkAnswers
            ERR := true, CAUSE := 4, FINFO := 0 } ∧
          SlotsFilled s.PB t.PB (countOf s.CFG) (permute raw (permOf s.CFG)) ∧ Flushed s t .fail))

/-- R131, D27: with a configuration `SET` is exactly `ENC` followed by `PUT.FL`, and `SET.ALL` exactly `ENC` followed by
`FILL.FL`, on the fault paths too: after a faulting `ENC` the second command is ignored. -/
def Obligations.SetIsEncThenPutFl : Prop :=
  ∀ s t : State, s.ERR = false → s.CFGD = true → exec .enc s = .next t →
    exec .set s = exec .putFl t ∧ exec .setAll s = exec .fillFl t

/-- R132: `CLEAR` writes the dark pixel to `RAW` and to every slot, then flushes once. The used-up answer (log entry 3) and
the number of slots the strip shows after `fail` (log entry 4) are the model's choices. -/
def Obligations.ClearDarkensEverySlot : Prop :=
  encode .clear = 0x00000034 ∧
  ∀ s : State, s.ERR = false →
    (s.CFGD = false → exec .clear s = .next { s with ERR := true, CAUSE := 7, FINFO := 0x00000034 }) ∧
    (s.CFGD = true → nextAnswer s = .ok →
      ∃ t, exec .clear s = .next t ∧
        t = { s with
          RAW := 0x00000000, PB := t.PB, events := t.events, DISP := t.DISP, sinkAnswers := t.sinkAnswers } ∧
        SlotsFilled s.PB t.PB (countOf s.CFG) 0x00000000 ∧ Flushed s t .ok) ∧
    (s.CFGD = true → nextAnswer s = .fail →
      ∃ t, exec .clear s = .next t ∧
        t = { s with
          RAW := 0x00000000, PB := t.PB, events := t.events, DISP := t.DISP, sinkAnswers := t.sinkAnswers
          ERR := true, CAUSE := 4, FINFO := 0 } ∧
        SlotsFilled s.PB t.PB (countOf s.CFG) 0x00000000 ∧ Flushed s t .fail)

/-- R132, idempotence: a second `CLEAR` changes no state of the CMU and emits one more flush with the same all-zero
snapshot. That the flush uses up a listed answer is the model's choice (log entry 3). -/
def Obligations.SecondClearOnlyFlushesAgain : Prop :=
  ∀ s t : State, s.ERR = false → s.CFGD = true → nextAnswer s = .ok → exec .clear s = .next t → nextAnswer t = .ok →
    exec .clear t = .next { t with
      events := t.events ++ [⟨List.replicate (countOf s.CFG) 0x00000000, protoOf s.CFG, .ok⟩]
      sinkAnswers := t.sinkAnswers.tail }

/-! ## Effects -/

/-- R151: the travelling index: `FRAME mod COUNT`, and for `TIDX.BNC` forward on the even traversals and backward on the
odd ones. The premise that the strip has a pixel holds in every configured state (R33). -/
def Obligations.TidxTravelsAndBounces : Prop :=
  ∀ s : State, s.ERR = false →
    (s.CFGD = false →
      exec .tidx s = .next { s with ERR := true, CAUSE := 7, FINFO := 0x00000022 } ∧
      exec .tidxBnc s = .next { s with ERR := true, CAUSE := 7, FINFO := 0x00000122 }) ∧
    (∀ n q r : Nat, s.CFGD = true → n = countOf s.CFG → 1 ≤ n → s.FRAME.toNat = q * n + r → r < n →
      (∃ t, exec .tidx s = .next t ∧ t = { s with TGT := t.TGT } ∧ t.TGT.toNat = r) ∧
      (∃ t, exec .tidxBnc s = .next t ∧ t = { s with TGT := t.TGT } ∧
        (q % 2 = 0 → t.TGT.toNat = r) ∧ (q % 2 = 1 → t.TGT.toNat = n - 1 - r)))

/-- R152: `SEL` loads the lit pixel where `IDX` = `TGT` and the dark one elsewhere, `SEL.INV` the reverse; `INT` is
checked whether or not the pixel is lit. -/
def Obligations.SelPicksTheLitOrTheDarkPixel : Prop :=
  ∀ s : State, s.ERR = false →
    (s.CFGD = false →
      exec .sel s = .next { s with ERR := true, CAUSE := 7, FINFO := 0x00000021 } ∧
      exec .selInv s = .next { s with ERR := true, CAUSE := 7, FINFO := 0x00000121 }) ∧
    (s.CFGD = true → val s.INT = none →
      exec .sel s = .next { s with ERR := true, CAUSE := 6, FINFO := 0x28 } ∧
      exec .selInv s = .next { s with ERR := true, CAUSE := 6, FINFO := 0x28 }) ∧
    (∀ x, s.CFGD = true → val s.INT = some x →
      (s.IDX = s.TGT →
        exec .sel s = .next { s with RAW := encodePixel s.RGB x (protoOf s.CFG) } ∧
        exec .selInv s = .next { s with RAW := 0x00000000 }) ∧
      (s.IDX ≠ s.TGT →
        exec .sel s = .next { s with RAW := 0x00000000 } ∧
        exec .selInv s = .next { s with RAW := encodePixel s.RGB x (protoOf s.CFG) }))

/-- R153: `FADE` at step `k` writes the pattern of exactly `k/32`, `FADE.OUT` that of `(32 - k)/32`; no configuration is
needed and no fault possible. -/
def Obligations.FadeWritesExactSteps : Prop :=
  ∀ (s : State) (k : Nat), s.ERR = false → k = s.FRAME.toNat % 32 →
    (∃ t, exec .fade s = .next t ∧ t = { s with INT := t.INT } ∧ val t.INT = some ((k : ℚ) / 32) ∧
      t.INT.getLsbD 31 = false) ∧
    (∃ t, exec .fadeOut s = .next t ∧ t = { s with INT := t.INT } ∧ val t.INT = some ((32 - (k : ℚ)) / 32) ∧
      t.INT.getLsbD 31 = false)

/-- R154: the wheel position of a pixel of the strip under both presets; an index outside the strip faults with nothing
written. -/
def Obligations.WposPlacesThePixelOnTheWheel : Prop :=
  ∀ s : State, s.ERR = false →
    (s.CFGD = false →
      exec .wpos s = .next { s with ERR := true, CAUSE := 7, FINFO := 0x00000024 } ∧
      exec .wposRb s = .next { s with ERR := true, CAUSE := 7, FINFO := 0x00000124 }) ∧
    (s.CFGD = true → countOf s.CFG ≤ s.IDX.toNat →
      exec .wpos s = .next { s with ERR := true, CAUSE := 2, FINFO := s.IDX } ∧
      exec .wposRb s = .next { s with ERR := true, CAUSE := 2, FINFO := s.IDX }) ∧
    (s.CFGD = true → s.IDX.toNat < countOf s.CFG →
      (∃ t, exec .wpos s = .next t ∧ t = { s with POS := t.POS } ∧
        t.POS.toNat = s.FRAME.toNat % 360 + s.IDX.toNat * 360 / countOf s.CFG ∧ t.POS.toNat ≤ 719) ∧
      (∃ t, exec .wposRb s = .next t ∧ t = { s with POS := t.POS } ∧
        t.POS.toNat = (s.IDX.toNat * 256 / countOf s.CFG + s.FRAME.toNat) % 256))

/-- R155: over the indices of the strip, `SEL` gives the lit word at `TGT` alone and the dark word elsewhere, `SEL.INV`
the reverse. Where the lit word is not 0, so exactly the pixel at `TGT` differs from the background: it alone is not
dark under `SEL` and it alone is dark under `SEL.INV`; where it is 0 no pixel differs. -/
def Obligations.ExactlyOnePixelDiffers : Prop :=
  ∀ (s : State) (x : ℚ) (i : Nat), s.ERR = false → s.CFGD = true → val s.INT = some x →
    s.TGT.toNat < countOf s.CFG → i < countOf s.CFG →
      ∃ t u, exec .sel { s with IDX := BitVec.ofNat 32 i } = .next t ∧
        exec .selInv { s with IDX := BitVec.ofNat 32 i } = .next u ∧
        (i = s.TGT.toNat → t.RAW = encodePixel s.RGB x (protoOf s.CFG) ∧ u.RAW = 0) ∧
        (i ≠ s.TGT.toNat → t.RAW = 0 ∧ u.RAW = encodePixel s.RGB x (protoOf s.CFG)) ∧
        (encodePixel s.RGB x (protoOf s.CFG) ≠ 0 → (t.RAW ≠ 0 ↔ i = s.TGT.toNat) ∧ (u.RAW = 0 ↔ i = s.TGT.toNat)) ∧
        (encodePixel s.RGB x (protoOf s.CFG) = 0 → t.RAW = 0 ∧ u.RAW = 0)

/-- R155: which colours and intensities encode to the dark word, under each protocol. -/
def Obligations.DarkEncodingsAreKnown : Prop :=
  ∀ (rgb : BitVec 24) (x : ℚ),
    (encodePixel rgb x .threeChannel = 0 ↔ (rgb = 0 ∧ 1 ≤ x) ∨ x ≤ 1 / 510) ∧
    (encodePixel rgb x .fourChannelWithIntensity = 0 ↔ rgb = 0 ∧ x ≤ 0)

/-! ## The sink -/

/-- R61, R55: one `Flush` stands for `set_raw` of every slot in ascending order, each with its bytes in byte-position
order, and one `flush()`. -/
def Obligations.FlushStandsForTheSinkCalls : Prop :=
  ∀ e : FlushEvent,
    (sinkCalls e).length = e.snapshot.length + 1 ∧ (sinkCalls e)[e.snapshot.length]? = some .flush ∧
    ∀ (i : Nat) (w : Word), e.snapshot[i]? = some w →
      (e.proto = .threeChannel →
        (sinkCalls e)[i]? = some (.setRaw i [w.extractLsb' 16 8, w.extractLsb' 8 8, w.extractLsb' 0 8])) ∧
      (e.proto = .fourChannelWithIntensity →
        (sinkCalls e)[i]? =
          some (.setRaw i [w.extractLsb' 16 8, w.extractLsb' 8 8, w.extractLsb' 0 8, w.extractLsb' 24 8]))

/-! ## The bus -/

/-- R51, R57, R58: a 4-byte read of each of the seventeen registers answers `OKAY` with its value and changes nothing
else. The form of the step is the model's, here and below (log entries 1 and 2). -/
def Obligations.ReadsAnswerTheRegister : Prop :=
  ∀ (s : State) (off : BitVec 8) (v : Word) (rest : List Input),
    s.pending = .bus (.read 4 off) :: rest →
    (off, v) ∈
      ([(0x00, 0), (0x04, (if s.ERR then 2 else 0) + (if s.CFGD then 1 else 0)), (0x08, s.CAUSE.setWidth 32),
        (0x0C, s.FINFO), (0x10, s.CFG), (0x14, s.CFGIN), (0x18, s.RGB.setWidth 32), (0x1C, s.H), (0x20, s.S),
        (0x24, s.V), (0x28, s.INT), (0x2C, s.POS), (0x30, s.PERIOD), (0x34, s.IDX), (0x38, s.FRAME), (0x3C, s.TGT),
        (0x40, s.RAW)] : List (BitVec 8 × Word)) →
      step s = .next { s with pending := rest, answer := some (.read .okay v) }

/-- R51, R57, R58: a 4-byte write of each of the twelve writable registers other than `CMD` answers `OKAY` and stores the
value, `RGB` without bits 31:24, and changes nothing else, whatever `STATUS` is (R52). -/
def Obligations.WritesStoreTheRegister : Prop :=
  ∀ (s t : State) (off : BitVec 8) (v : Word) (rest : List Input),
    s.pending = .bus (.write 4 off v) :: rest →
    (off, t) ∈
      ([(0x14, { s with CFGIN := v }), (0x18, { s with RGB := v.extractLsb' 0 24 }), (0x1C, { s with H := v }),
        (0x20, { s with S := v }), (0x24, { s with V := v }), (0x28, { s with INT := v }), (0x2C, { s with POS := v }),
        (0x30, { s with PERIOD := v }), (0x34, { s with IDX := v }), (0x38, { s with FRAME := v }),
        (0x3C, { s with TGT := v }), (0x40, { s with RAW := v })] : List (BitVec 8 × State)) →
      step s = .next { t with pending := rest, answer := some (.write .okay) }

/-- R56, R58, R212: an access of another width, a misaligned one, one at an unmapped offset, and a write to a read-only
register answer `ERROR` and change nothing: no fault is recorded. -/
def Obligations.IllegalAccessesAnswerError : Prop :=
  ∀ (s : State) (width : Nat) (off : BitVec 8) (v : Word) (rest : List Input),
    ((width ≠ 4 ∨ off.toNat % 4 ≠ 0 ∨ 0x44 ≤ off.toNat) →
      s.pending = .bus (.read width off) :: rest →
        step s = .next { s with pending := rest, answer := some (.read .error 0) }) ∧
    ((width ≠ 4 ∨ off.toNat % 4 ≠ 0 ∨ 0x44 ≤ off.toNat ∨
        off ∈ ([0x04, 0x08, 0x0C, 0x10] : List (BitVec 8))) →
      s.pending = .bus (.write width off v) :: rest →
        step s = .next { s with pending := rest, answer := some (.write .error) })

/-- R54: the host has no read path to a slot. Two states that differ only in the pixel buffer go on, for whatever input
comes next, to states that differ at most in the buffer and in what the sink was shown. The sink's answer is common to
both runs: the listed one, or the free value of log entry 3 (DESIGN CHOICE), which depends on the number of flushes and
not on the snapshot. R61 leaves the answer free, so a sink that answered by what it is shown would let the host see a
slot through `STATUS`. -/
def Obligations.HostCannotReadTheBuffer : Prop :=
  ∀ (s t : State) (m : Memory), step s = .next t →
    ∃ u, step { s with PB := m } = .next u ∧ u = { t with PB := u.PB, events := u.events, DISP := u.DISP }

/-! ## Reset and the other inputs -/

/-- R45, R230: the reset values the spec gives, and `STATUS` = 0. -/
def Obligations.ResetValuesAreTheSpecs : Prop :=
  State.reset.RGB = 0 ∧ State.reset.H = 0 ∧ State.reset.S = 0 ∧ State.reset.V = 0 ∧
  State.reset.INT = 0x3F800000 ∧ State.reset.POS = 0 ∧ State.reset.PERIOD = 360 ∧ State.reset.IDX = 0 ∧
  State.reset.FRAME = 0 ∧ State.reset.TGT = 0 ∧ State.reset.RAW = 0 ∧ State.reset.CFGIN = 0 ∧ State.reset.CFG = 0 ∧
  State.reset.CFGD = false ∧ State.reset.ERR = false ∧ State.reset.CAUSE = 0 ∧ State.reset.FINFO = 0 ∧
  statusWord State.reset = 0

/-- R230, R231: reset asserted by the platform gives every register its reset value from any state, emits no flush and
leaves the strip showing what it showed. That it comes between transactions, as an input, is the model's form (log
entry 10). -/
def Obligations.PlatformResetRestoresTheRegisters : Prop :=
  ∀ (s : State) (rest : List Input), s.pending = .reset :: rest →
    ∃ t, step s = .next t ∧
      t.RGB = 0 ∧ t.H = 0 ∧ t.S = 0 ∧ t.V = 0 ∧ t.INT = 0x3F800000 ∧ t.POS = 0 ∧ t.PERIOD = 360 ∧ t.IDX = 0 ∧
      t.FRAME = 0 ∧ t.TGT = 0 ∧ t.RAW = 0 ∧ t.CFGIN = 0 ∧ t.CFG = 0 ∧ t.CFGD = false ∧ t.ERR = false ∧ t.CAUSE = 0 ∧
      t.FINFO = 0 ∧ t.events = s.events ∧ t.DISP = s.DISP ∧ t.npixMax = s.npixMax

/-- R235, R59, R212: every step has a next state, whatever the registers hold, but for the one input a model must
refuse, a transaction of a second bus master; with no input the state stays as it is (R230, R236). -/
def Obligations.EveryHostInputIsServed : Prop :=
  ∀ s : State,
    (s.pending = [] → step s = .next s) ∧
    (∀ t rest, s.pending = .secondMaster t :: rest → step s = .refused .secondMaster) ∧
    ((∀ t rest, s.pending ≠ .secondMaster t :: rest) → ∃ t, step s = .next t)

/-! ## Invariants and whole-machine rules -/

/-- The invariant of Safety.lean holds after reset. The clauses on the pixel memory, its capacity and the strip rest on
the model's reset values for them (log entries 5, 6, 7). -/
def Obligations.ResetMeetsTheInvariant : Prop :=
  StateInv State.reset

/-- Every step keeps the invariant (R33, R35, R36, R38, R42, R201): the canonical pixel memory inside the strip, no
recorded cause without `ERR`, only causes the CMU raises, a legal configuration exactly when one is latched, and a strip
that shows the last successful frame. -/
def Obligations.EveryStepKeepsTheInvariant : Prop :=
  ∀ s t : State, StateInv s → step s = .next t → StateInv t

/-- R33, R34: a latched configuration stays until reset: no transaction changes `CFG` or clears `CFGD`. -/
def Obligations.ConfigurationIsImmutable : Prop :=
  ∀ s t : State, s.CFGD = true → (∀ rest, s.pending ≠ .reset :: rest) → step s = .next t →
    t.CFGD = true ∧ t.CFG = s.CFG

/-- R204, R205: a recorded fault is kept until a write of exactly `CLRERR` to `CMD`, or reset. -/
def Obligations.FirstFaultIsKept : Prop :=
  ∀ s t : State, s.ERR = true → step s = .next t →
    (∀ rest, s.pending ≠ .reset :: rest) →
    (∀ rest, s.pending ≠ .bus (.write 4 0x00 0x00000002) :: rest) →
      t.ERR = true ∧ t.CAUSE = s.CAUSE ∧ t.FINFO = s.FINFO ∧ t.PB = s.PB ∧ t.events = s.events

/-- R60, R61, R42: a step emits at most one flush, its snapshot is the buffer the step leaves, and only a flush changes
what the strip shows: the snapshot after `ok`, and a recorded `HardwareWriteFailure` after `fail`. The used-up answer (log
entry 3), the number of slots the strip shows after `fail` (log entry 4) and that a reset leaves the strip (log entry 10)
are the model's. -/
def Obligations.StripChangesOnlyByAFlush : Prop :=
  ∀ s t : State, step s = .next t →
    (t.events = s.events ∧ t.DISP = s.DISP) ∨
    (∃ a, Flushed s t a ∧ s.ERR = false ∧ s.CFGD = true ∧ (a = .ok → t.ERR = false) ∧
      (a = .fail → t.ERR = true ∧ t.CAUSE = 4 ∧ t.FINFO = 0))

/-- R74: what each command may write. Every register outside its row, every slot it does not store to, the history and
the strip are unchanged. R202: a command that records a fault records one its row names, a command whose row names none
leaves the fault registers, and so does every command but `CLRERR` while a fault is recorded. -/
def Obligations.CommandsWriteOnlyTheirRow : Prop :=
  ∀ (i : Instr) (s t : State), Memory.wf s.PB = true → exec i s = .next t →
    (t.PERIOD = s.PERIOD ∧ t.IDX = s.IDX ∧ t.FRAME = s.FRAME ∧ t.CFGIN = s.CFGIN ∧ t.npixMax = s.npixMax ∧
      t.pending = s.pending ∧ t.answer = s.answer) ∧
    (i ≠ .rgb2hsv → t.H = s.H ∧ t.S = s.S ∧ t.V = s.V) ∧
    (i ∉ ([.hsv2rgb, .wheel] : List Instr) → t.RGB = s.RGB) ∧
    (i ∉ ([.fade, .fadeOut] : List Instr) → t.INT = s.INT) ∧
    (i ∉ ([.wpos, .wposRb] : List Instr) → t.POS = s.POS) ∧
    (i ∉ ([.tidx, .tidxBnc] : List Instr) → t.TGT = s.TGT) ∧
    (i ∉ ([.enc, .sel, .selInv, .set, .setAll, .clear] : List Instr) → t.RAW = s.RAW) ∧
    (i ≠ .init → t.CFG = s.CFG ∧ t.CFGD = s.CFGD) ∧
    (i ∉ ([.init, .put, .putFl, .fill, .fillFl, .set, .setAll, .clear] : List Instr) → t.PB = s.PB) ∧
    (i ∈ ([.put, .putFl, .set] : List Instr) → ∀ j, j ≠ s.IDX.toNat → readSlot t.PB j = readSlot s.PB j) ∧
    (∀ j, countOf t.CFG ≤ j → readSlot t.PB j = readSlot s.PB j) ∧
    (i ∉ ([.putFl, .fillFl, .flush, .set, .setAll, .clear] : List Instr) →
      t.events = s.events ∧ t.DISP = s.DISP ∧ t.sinkAnswers = s.sinkAnswers) ∧
    (t.ERR = false → i ≠ .clrerr → s.ERR = false ∧ t.CAUSE = s.CAUSE ∧ t.FINFO = s.FINFO) ∧
    (i ∈ ([.nop, .rgb2hsv, .fade, .fadeOut] : List Instr) → t.ERR = s.ERR ∧ t.CAUSE = s.CAUSE ∧ t.FINFO = s.FINFO) ∧
    (s.ERR = true → i ≠ .clrerr → t.ERR = true ∧ t.CAUSE = s.CAUSE ∧ t.FINFO = s.FINFO) ∧
    (s.ERR = false → t.ERR = true →
      (t.CAUSE = 1 ∧ i = .init) ∨
      (t.CAUSE = 2 ∧ i ∈ ([.wpos, .wposRb, .put, .putFl, .set] : List Instr)) ∨
      (t.CAUSE = 4 ∧ i ∈ ([.putFl, .fillFl, .flush, .set, .setAll, .clear] : List Instr)) ∨
      (t.CAUSE = 6 ∧ i ∈ ([.hsv2rgb, .wheel, .enc, .sel, .selInv, .set, .setAll] : List Instr)) ∨
      (t.CAUSE = 7 ∧ i ∈ ([.enc, .sel, .selInv, .tidx, .tidxBnc, .wpos, .wposRb, .put, .putFl, .fill, .fillFl, .flush,
        .set, .setAll, .clear] : List Instr)))
end

