-- ==== Sys2Proof/Laws/Memory.lean ====
section
/-! SUPPORT. The pixel memory: read after write, read after fill, and that both stores keep the canonical form. -/

namespace Sys2Proof.Machine

/-- Every index of the memory is at least `n`. -/
def Memory.above (n : Nat) (m : Memory) : Prop := ∀ c ∈ m, n ≤ c.1

theorem wf_tail {c : Nat × Word} {m : Memory} (h : Memory.wf (c :: m) = true) : Memory.wf m = true := by
  cases m with
  | nil => rfl
  | cons d m => simp only [Memory.wf, Bool.and_eq_true] at h; exact h.2

theorem wf_head_ne {c : Nat × Word} {m : Memory} (h : Memory.wf (c :: m) = true) : c.2 ≠ unlistedSlot := by
  cases m with
  | nil => simpa [Memory.wf] using h
  | cons d m => simp only [Memory.wf, Bool.and_eq_true, bne_iff_ne] at h; exact h.1.1

/-- In a canonical memory the indices after the first are above it. -/
theorem wf_above {c : Nat × Word} {m : Memory} (h : Memory.wf (c :: m) = true) : Memory.above (c.1 + 1) m := by
  induction m generalizing c with
  | nil => intro d hd; cases hd
  | cons d m ih =>
    have hcd : c.1 < d.1 := by
      simp only [Memory.wf, Bool.and_eq_true, decide_eq_true_eq] at h; exact h.1.2
    intro e he
    rcases List.mem_cons.1 he with rfl | he
    · exact hcd
    · exact le_trans (by omega) (ih (wf_tail h) e he)

/-- A canonical memory is a nonzero first pair before a canonical rest above it. -/
theorem wf_cons {c : Nat × Word} {m : Memory} :
    Memory.wf (c :: m) = true ↔
      c.2 ≠ unlistedSlot ∧ Memory.above (c.1 + 1) m ∧ Memory.wf m = true := by
  constructor
  · exact fun h => ⟨wf_head_ne h, wf_above h, wf_tail h⟩
  · rintro ⟨h1, h2, h3⟩
    cases m with
    | nil => simpa [Memory.wf] using h1
    | cons d m =>
      have : c.1 < d.1 := h2 d (by simp)
      simp [Memory.wf, h1, this, h3]

/-- A store lists no index but the old ones and its own. -/
theorem mem_writeSlot {m : Memory} {i : Nat} {v : Word} {c : Nat × Word} (h : c ∈ writeSlot m i v) :
    c = (i, v) ∨ c ∈ m := by
  induction m with
  | nil =>
    simp only [writeSlot] at h
    split at h <;> simp_all
  | cons d m ih =>
    obtain ⟨j, u⟩ := d
    simp only [writeSlot] at h
    split at h
    · split at h <;> simp_all
    · split at h
      · subst_vars
        split at h
        · simp [h]
        · rcases List.mem_cons.1 h with rfl | h <;> simp_all
      · rcases List.mem_cons.1 h with rfl | h
        · simp
        · rcases ih h with h | h <;> simp [h]

/-- A store keeps the canonical form. -/
theorem wf_writeSlot {m : Memory} (h : Memory.wf m = true) (i : Nat) (v : Word) :
    Memory.wf (writeSlot m i v) = true := by
  induction m with
  | nil =>
    simp only [writeSlot]
    split
    · rfl
    · simpa [Memory.wf] using ‹¬v = unlistedSlot›
  | cons d m ih =>
    obtain ⟨j, u⟩ := d
    obtain ⟨hu, ha, hm⟩ := wf_cons.1 h
    simp only [writeSlot]
    split
    · split
      · exact h
      · refine wf_cons.2 ⟨‹_›, ?_, h⟩
        intro c hc
        rcases List.mem_cons.1 hc with rfl | hc
        · simpa using ‹i < j›
        · have := ha c hc; simp only at this ⊢; omega
    · split
      · subst_vars
        split
        · exact hm
        · exact wf_cons.2 ⟨‹_›, ha, hm⟩
      · refine wf_cons.2 ⟨hu, ?_, ih hm⟩
        intro c hc
        rcases mem_writeSlot hc with rfl | hc
        · simp only; omega
        · exact ha c hc

/-- A slot below every listed index reads as an unlisted one. -/
theorem readSlot_above {m : Memory} {n i : Nat} (h : Memory.above n m) (hi : i < n) :
    readSlot m i = unlistedSlot := by
  induction m with
  | nil => rfl
  | cons c m ih =>
    obtain ⟨j, u⟩ := c
    have hj : n ≤ j := h (j, u) (by simp)
    simp only [readSlot]
    rw [if_neg (by omega)]
    exact ih fun c hc => h c (by simp [hc])

/-- Reading the slot just stored gives the stored word. -/
theorem readSlot_writeSlot_same {m : Memory} (h : Memory.wf m = true) (i : Nat) (v : Word) :
    readSlot (writeSlot m i v) i = v := by
  induction m with
  | nil =>
    simp only [writeSlot]
    split <;> simp_all [readSlot]
  | cons d m ih =>
    obtain ⟨j, u⟩ := d
    obtain ⟨hu, ha, hm⟩ := wf_cons.1 h
    simp only [writeSlot]
    split
    · split
      · subst_vars
        simp only [readSlot]
        rw [if_neg (by omega)]
        exact readSlot_above ha (by simp only; omega)
      · simp [readSlot]
    · split
      · subst_vars
        split
        · subst_vars; exact readSlot_above ha (by simp)
        · simp [readSlot]
      · simp only [readSlot]
        rw [if_neg ‹_›]
        exact ih hm

/-- A store leaves every other slot alone. -/
theorem readSlot_writeSlot_other {m : Memory} (h : Memory.wf m = true) {i k : Nat} (hk : k ≠ i) (v : Word) :
    readSlot (writeSlot m i v) k = readSlot m k := by
  induction m with
  | nil =>
    simp only [writeSlot]
    split <;> simp [readSlot, hk]
  | cons d m ih =>
    obtain ⟨j, u⟩ := d
    obtain ⟨hu, ha, hm⟩ := wf_cons.1 h
    simp only [writeSlot]
    split
    · split <;> simp [readSlot, hk]
    · split
      · subst_vars
        split <;> simp [readSlot, hk]
      · simp only [readSlot]
        rw [ih hm]

/-- The pairs a broadcast store lists. -/
theorem mem_fillSlots {m : Memory} {n : Nat} {v : Word} {c : Nat × Word} (h : c ∈ fillSlots m n v) :
    (c.1 < n ∧ c.2 = v) ∨ (c ∈ m ∧ n ≤ c.1) := by
  simp only [fillSlots, List.mem_append, List.mem_filter, decide_eq_true_eq] at h
  rcases h with h | h
  · split at h
    · cases h
    · obtain ⟨i, hi, rfl⟩ := List.mem_map.1 h
      exact .inl ⟨List.mem_range.1 hi, rfl⟩
  · exact .inr h

theorem above_filter (m : Memory) (n : Nat) : Memory.above n (m.filter fun c => n ≤ c.1) := by
  intro c hc
  simpa using (List.mem_filter.1 hc).2

theorem wf_filter {m : Memory} (h : Memory.wf m = true) (p : Nat × Word → Bool) :
    Memory.wf (m.filter p) = true := by
  induction m with
  | nil => rfl
  | cons c m ih =>
    obtain ⟨hu, ha, hm⟩ := wf_cons.1 h
    simp only [List.filter_cons]
    split
    · exact wf_cons.2 ⟨hu, fun d hd => ha d (List.mem_filter.1 hd).1, ih hm⟩
    · exact ih hm

/-- A run of equal slots before a canonical memory above them is canonical. -/
theorem wf_run_append {m : Memory} {v : Word} (hv : v ≠ unlistedSlot) (hm : Memory.wf m = true) :
    ∀ (len start : Nat), Memory.above (start + len) m →
      Memory.wf ((List.range' start len).map (fun i => (i, v)) ++ m) = true
  | 0, _, _ => by simpa using hm
  | len + 1, start, ha => by
    simp only [List.range'_succ, List.map_cons, List.cons_append]
    refine wf_cons.2 ⟨hv, ?_, wf_run_append hv hm len (start + 1) fun c hc => by have := ha c hc; omega⟩
    intro c hc
    rcases List.mem_append.1 hc with hc | hc
    · obtain ⟨i, hi, rfl⟩ := List.mem_map.1 hc
      have := List.mem_range'_1.1 hi
      simp only; omega
    · have := ha c hc
      simp only; omega

/-- A broadcast store keeps the canonical form. -/
theorem wf_fillSlots {m : Memory} (h : Memory.wf m = true) (n : Nat) (v : Word) :
    Memory.wf (fillSlots m n v) = true := by
  unfold fillSlots
  split
  · simpa using wf_filter h _
  · rw [List.range_eq_range']
    exact wf_run_append ‹_› (wf_filter h _) n 0 (by simpa using above_filter m n)

theorem readSlot_append {m m' : Memory} {k : Nat} (h : ∀ c ∈ m, c.1 ≠ k) :
    readSlot (m ++ m') k = readSlot m' k := by
  induction m with
  | nil => rfl
  | cons c m ih =>
    obtain ⟨j, u⟩ := c
    have : j ≠ k := h (j, u) (by simp)
    simp only [List.cons_append, readSlot]
    rw [if_neg (by omega)]
    exact ih fun c hc => h c (by simp [hc])

theorem readSlot_run (v : Word) (m : Memory) : ∀ (len start k : Nat), start ≤ k → k < start + len →
    readSlot ((List.range' start len).map (fun i => (i, v)) ++ m) k = v
  | 0, _, _, h1, h2 => by omega
  | len + 1, start, k, h1, h2 => by
    simp only [List.range'_succ, List.map_cons, List.cons_append, readSlot]
    split
    · rfl
    · exact readSlot_run v m len (start + 1) k (by omega) (by omega)

/-- Every slot of a broadcast store reads as the stored word. -/
theorem readSlot_fillSlots_lt (m : Memory) {n k : Nat} (hk : k < n) (v : Word) :
    readSlot (fillSlots m n v) k = v := by
  unfold fillSlots
  split
  · subst_vars
    exact readSlot_above (above_filter m n) hk
  · rw [List.range_eq_range']
    exact readSlot_run v _ n 0 k (by omega) (by omega)

theorem readSlot_filter (m : Memory) {n k : Nat} (hk : n ≤ k) :
    readSlot (m.filter fun c => n ≤ c.1) k = readSlot m k := by
  induction m with
  | nil => rfl
  | cons c m ih =>
    obtain ⟨j, u⟩ := c
    simp only [List.filter_cons]
    split
    · simp only [readSlot]; rw [ih]
    · rename_i hj
      simp only [decide_eq_true_eq] at hj
      simp only [readSlot]
      rw [if_neg (by omega), ih]

/-- A broadcast store leaves every slot from `n` on alone. -/
theorem readSlot_fillSlots_ge (m : Memory) {n k : Nat} (hk : n ≤ k) (v : Word) :
    readSlot (fillSlots m n v) k = readSlot m k := by
  unfold fillSlots
  rw [readSlot_append, readSlot_filter m hk]
  intro c hc
  split at hc
  · cases hc
  · obtain ⟨i, hi, rfl⟩ := List.mem_map.1 hc
    have := List.mem_range.1 hi
    simp only; omega

@[simp] theorem snapshot_length (m : Memory) (n : Nat) : (snapshot m n).length = n := by simp [snapshot]

/-- Slot `i` of a snapshot is what slot `i` reads. -/
theorem snapshot_getElem? (m : Memory) {n i : Nat} (h : i < n) : (snapshot m n)[i]? = some (readSlot m i) := by
  simp [snapshot, h]

end Sys2Proof.Machine
end

