-- ==== Sys2Proof/Laws/State.lean ====
section
/-! SUPPORT. One lemma for each field of each state update: what fault entry (R203), the return from a fault (R205), a
flush (R61), the bus reply and platform reset (R230) leave in every field. -/

namespace Sys2Proof.Machine

/-! Fault entry (R203). -/

@[simp] theorem raiseFault_RGB (c : Cause) (info : Word) (s : State) : (raiseFault c info s).RGB = s.RGB := rfl
@[simp] theorem raiseFault_H (c : Cause) (info : Word) (s : State) : (raiseFault c info s).H = s.H := rfl
@[simp] theorem raiseFault_S (c : Cause) (info : Word) (s : State) : (raiseFault c info s).S = s.S := rfl
@[simp] theorem raiseFault_V (c : Cause) (info : Word) (s : State) : (raiseFault c info s).V = s.V := rfl
@[simp] theorem raiseFault_INT (c : Cause) (info : Word) (s : State) : (raiseFault c info s).INT = s.INT := rfl
@[simp] theorem raiseFault_POS (c : Cause) (info : Word) (s : State) : (raiseFault c info s).POS = s.POS := rfl
@[simp] theorem raiseFault_PERIOD (c : Cause) (info : Word) (s : State) : (raiseFault c info s).PERIOD = s.PERIOD := rfl
@[simp] theorem raiseFault_IDX (c : Cause) (info : Word) (s : State) : (raiseFault c info s).IDX = s.IDX := rfl
@[simp] theorem raiseFault_FRAME (c : Cause) (info : Word) (s : State) : (raiseFault c info s).FRAME = s.FRAME := rfl
@[simp] theorem raiseFault_TGT (c : Cause) (info : Word) (s : State) : (raiseFault c info s).TGT = s.TGT := rfl
@[simp] theorem raiseFault_RAW (c : Cause) (info : Word) (s : State) : (raiseFault c info s).RAW = s.RAW := rfl
@[simp] theorem raiseFault_CFGIN (c : Cause) (info : Word) (s : State) : (raiseFault c info s).CFGIN = s.CFGIN := rfl
@[simp] theorem raiseFault_CFG (c : Cause) (info : Word) (s : State) : (raiseFault c info s).CFG = s.CFG := rfl
@[simp] theorem raiseFault_CFGD (c : Cause) (info : Word) (s : State) : (raiseFault c info s).CFGD = s.CFGD := rfl
@[simp] theorem raiseFault_ERR (c : Cause) (info : Word) (s : State) : (raiseFault c info s).ERR = true := rfl
@[simp] theorem raiseFault_CAUSE (c : Cause) (info : Word) (s : State) : (raiseFault c info s).CAUSE = causeCode c := rfl
@[simp] theorem raiseFault_FINFO (c : Cause) (info : Word) (s : State) : (raiseFault c info s).FINFO = info := rfl
@[simp] theorem raiseFault_PB (c : Cause) (info : Word) (s : State) : (raiseFault c info s).PB = s.PB := rfl
@[simp] theorem raiseFault_DISP (c : Cause) (info : Word) (s : State) : (raiseFault c info s).DISP = s.DISP := rfl
@[simp] theorem raiseFault_npixMax (c : Cause) (info : Word) (s : State) : (raiseFault c info s).npixMax = s.npixMax := rfl
@[simp] theorem raiseFault_events (c : Cause) (info : Word) (s : State) : (raiseFault c info s).events = s.events := rfl
@[simp] theorem raiseFault_sinkAnswers (c : Cause) (info : Word) (s : State) : (raiseFault c info s).sinkAnswers = s.sinkAnswers := rfl
@[simp] theorem raiseFault_pending (c : Cause) (info : Word) (s : State) : (raiseFault c info s).pending = s.pending := rfl
@[simp] theorem raiseFault_answer (c : Cause) (info : Word) (s : State) : (raiseFault c info s).answer = s.answer := rfl

/-! The return from a fault (R171, R205). -/

@[simp] theorem acknowledge_RGB (s : State) : (acknowledge s).RGB = s.RGB := rfl
@[simp] theorem acknowledge_H (s : State) : (acknowledge s).H = s.H := rfl
@[simp] theorem acknowledge_S (s : State) : (acknowledge s).S = s.S := rfl
@[simp] theorem acknowledge_V (s : State) : (acknowledge s).V = s.V := rfl
@[simp] theorem acknowledge_INT (s : State) : (acknowledge s).INT = s.INT := rfl
@[simp] theorem acknowledge_POS (s : State) : (acknowledge s).POS = s.POS := rfl
@[simp] theorem acknowledge_PERIOD (s : State) : (acknowledge s).PERIOD = s.PERIOD := rfl
@[simp] theorem acknowledge_IDX (s : State) : (acknowledge s).IDX = s.IDX := rfl
@[simp] theorem acknowledge_FRAME (s : State) : (acknowledge s).FRAME = s.FRAME := rfl
@[simp] theorem acknowledge_TGT (s : State) : (acknowledge s).TGT = s.TGT := rfl
@[simp] theorem acknowledge_RAW (s : State) : (acknowledge s).RAW = s.RAW := rfl
@[simp] theorem acknowledge_CFGIN (s : State) : (acknowledge s).CFGIN = s.CFGIN := rfl
@[simp] theorem acknowledge_CFG (s : State) : (acknowledge s).CFG = s.CFG := rfl
@[simp] theorem acknowledge_CFGD (s : State) : (acknowledge s).CFGD = s.CFGD := rfl
@[simp] theorem acknowledge_ERR (s : State) : (acknowledge s).ERR = false := rfl
@[simp] theorem acknowledge_CAUSE (s : State) : (acknowledge s).CAUSE = 0 := rfl
@[simp] theorem acknowledge_FINFO (s : State) : (acknowledge s).FINFO = 0 := rfl
@[simp] theorem acknowledge_PB (s : State) : (acknowledge s).PB = s.PB := rfl
@[simp] theorem acknowledge_DISP (s : State) : (acknowledge s).DISP = s.DISP := rfl
@[simp] theorem acknowledge_npixMax (s : State) : (acknowledge s).npixMax = s.npixMax := rfl
@[simp] theorem acknowledge_events (s : State) : (acknowledge s).events = s.events := rfl
@[simp] theorem acknowledge_sinkAnswers (s : State) : (acknowledge s).sinkAnswers = s.sinkAnswers := rfl
@[simp] theorem acknowledge_pending (s : State) : (acknowledge s).pending = s.pending := rfl
@[simp] theorem acknowledge_answer (s : State) : (acknowledge s).answer = s.answer := rfl

/-! A flush event (R61). -/

@[simp] theorem emitFlush_RGB (s : State) : (emitFlush s).RGB = s.RGB := rfl
@[simp] theorem emitFlush_H (s : State) : (emitFlush s).H = s.H := rfl
@[simp] theorem emitFlush_S (s : State) : (emitFlush s).S = s.S := rfl
@[simp] theorem emitFlush_V (s : State) : (emitFlush s).V = s.V := rfl
@[simp] theorem emitFlush_INT (s : State) : (emitFlush s).INT = s.INT := rfl
@[simp] theorem emitFlush_POS (s : State) : (emitFlush s).POS = s.POS := rfl
@[simp] theorem emitFlush_PERIOD (s : State) : (emitFlush s).PERIOD = s.PERIOD := rfl
@[simp] theorem emitFlush_IDX (s : State) : (emitFlush s).IDX = s.IDX := rfl
@[simp] theorem emitFlush_FRAME (s : State) : (emitFlush s).FRAME = s.FRAME := rfl
@[simp] theorem emitFlush_TGT (s : State) : (emitFlush s).TGT = s.TGT := rfl
@[simp] theorem emitFlush_RAW (s : State) : (emitFlush s).RAW = s.RAW := rfl
@[simp] theorem emitFlush_CFGIN (s : State) : (emitFlush s).CFGIN = s.CFGIN := rfl
@[simp] theorem emitFlush_CFG (s : State) : (emitFlush s).CFG = s.CFG := rfl
@[simp] theorem emitFlush_CFGD (s : State) : (emitFlush s).CFGD = s.CFGD := rfl
@[simp] theorem emitFlush_ERR (s : State) : (emitFlush s).ERR = s.ERR := rfl
@[simp] theorem emitFlush_CAUSE (s : State) : (emitFlush s).CAUSE = s.CAUSE := rfl
@[simp] theorem emitFlush_FINFO (s : State) : (emitFlush s).FINFO = s.FINFO := rfl
@[simp] theorem emitFlush_PB (s : State) : (emitFlush s).PB = s.PB := rfl
@[simp] theorem emitFlush_DISP (s : State) : (emitFlush s).DISP = 
    displayed s.events.length (snapshot s.PB (countOf s.CFG)) (nextAnswer s) := rfl
@[simp] theorem emitFlush_npixMax (s : State) : (emitFlush s).npixMax = s.npixMax := rfl
@[simp] theorem emitFlush_events (s : State) : (emitFlush s).events = s.events ++ [⟨snapshot s.PB (countOf s.CFG), protoOf s.CFG, nextAnswer s⟩] := rfl
@[simp] theorem emitFlush_sinkAnswers (s : State) : (emitFlush s).sinkAnswers = s.sinkAnswers.tail := rfl
@[simp] theorem emitFlush_pending (s : State) : (emitFlush s).pending = s.pending := rfl
@[simp] theorem emitFlush_answer (s : State) : (emitFlush s).answer = s.answer := rfl

/-! The bus reply (R58). -/

@[simp] theorem reply_RGB (a : BusAnswer) (s : State) : (reply a s).RGB = s.RGB := rfl
@[simp] theorem reply_H (a : BusAnswer) (s : State) : (reply a s).H = s.H := rfl
@[simp] theorem reply_S (a : BusAnswer) (s : State) : (reply a s).S = s.S := rfl
@[simp] theorem reply_V (a : BusAnswer) (s : State) : (reply a s).V = s.V := rfl
@[simp] theorem reply_INT (a : BusAnswer) (s : State) : (reply a s).INT = s.INT := rfl
@[simp] theorem reply_POS (a : BusAnswer) (s : State) : (reply a s).POS = s.POS := rfl
@[simp] theorem reply_PERIOD (a : BusAnswer) (s : State) : (reply a s).PERIOD = s.PERIOD := rfl
@[simp] theorem reply_IDX (a : BusAnswer) (s : State) : (reply a s).IDX = s.IDX := rfl
@[simp] theorem reply_FRAME (a : BusAnswer) (s : State) : (reply a s).FRAME = s.FRAME := rfl
@[simp] theorem reply_TGT (a : BusAnswer) (s : State) : (reply a s).TGT = s.TGT := rfl
@[simp] theorem reply_RAW (a : BusAnswer) (s : State) : (reply a s).RAW = s.RAW := rfl
@[simp] theorem reply_CFGIN (a : BusAnswer) (s : State) : (reply a s).CFGIN = s.CFGIN := rfl
@[simp] theorem reply_CFG (a : BusAnswer) (s : State) : (reply a s).CFG = s.CFG := rfl
@[simp] theorem reply_CFGD (a : BusAnswer) (s : State) : (reply a s).CFGD = s.CFGD := rfl
@[simp] theorem reply_ERR (a : BusAnswer) (s : State) : (reply a s).ERR = s.ERR := rfl
@[simp] theorem reply_CAUSE (a : BusAnswer) (s : State) : (reply a s).CAUSE = s.CAUSE := rfl
@[simp] theorem reply_FINFO (a : BusAnswer) (s : State) : (reply a s).FINFO = s.FINFO := rfl
@[simp] theorem reply_PB (a : BusAnswer) (s : State) : (reply a s).PB = s.PB := rfl
@[simp] theorem reply_DISP (a : BusAnswer) (s : State) : (reply a s).DISP = s.DISP := rfl
@[simp] theorem reply_npixMax (a : BusAnswer) (s : State) : (reply a s).npixMax = s.npixMax := rfl
@[simp] theorem reply_events (a : BusAnswer) (s : State) : (reply a s).events = s.events := rfl
@[simp] theorem reply_sinkAnswers (a : BusAnswer) (s : State) : (reply a s).sinkAnswers = s.sinkAnswers := rfl
@[simp] theorem reply_pending (a : BusAnswer) (s : State) : (reply a s).pending = s.pending := rfl
@[simp] theorem reply_answer (a : BusAnswer) (s : State) : (reply a s).answer = some a := rfl

/-! The broadcast store (R129). -/

@[simp] theorem fillRaw_RGB (s : State) : (fillRaw s).RGB = s.RGB := rfl
@[simp] theorem fillRaw_H (s : State) : (fillRaw s).H = s.H := rfl
@[simp] theorem fillRaw_S (s : State) : (fillRaw s).S = s.S := rfl
@[simp] theorem fillRaw_V (s : State) : (fillRaw s).V = s.V := rfl
@[simp] theorem fillRaw_INT (s : State) : (fillRaw s).INT = s.INT := rfl
@[simp] theorem fillRaw_POS (s : State) : (fillRaw s).POS = s.POS := rfl
@[simp] theorem fillRaw_PERIOD (s : State) : (fillRaw s).PERIOD = s.PERIOD := rfl
@[simp] theorem fillRaw_IDX (s : State) : (fillRaw s).IDX = s.IDX := rfl
@[simp] theorem fillRaw_FRAME (s : State) : (fillRaw s).FRAME = s.FRAME := rfl
@[simp] theorem fillRaw_TGT (s : State) : (fillRaw s).TGT = s.TGT := rfl
@[simp] theorem fillRaw_RAW (s : State) : (fillRaw s).RAW = s.RAW := rfl
@[simp] theorem fillRaw_CFGIN (s : State) : (fillRaw s).CFGIN = s.CFGIN := rfl
@[simp] theorem fillRaw_CFG (s : State) : (fillRaw s).CFG = s.CFG := rfl
@[simp] theorem fillRaw_CFGD (s : State) : (fillRaw s).CFGD = s.CFGD := rfl
@[simp] theorem fillRaw_ERR (s : State) : (fillRaw s).ERR = s.ERR := rfl
@[simp] theorem fillRaw_CAUSE (s : State) : (fillRaw s).CAUSE = s.CAUSE := rfl
@[simp] theorem fillRaw_FINFO (s : State) : (fillRaw s).FINFO = s.FINFO := rfl
@[simp] theorem fillRaw_PB (s : State) : (fillRaw s).PB = fillSlots s.PB (countOf s.CFG) (storedRaw s) := rfl
@[simp] theorem fillRaw_DISP (s : State) : (fillRaw s).DISP = s.DISP := rfl
@[simp] theorem fillRaw_npixMax (s : State) : (fillRaw s).npixMax = s.npixMax := rfl
@[simp] theorem fillRaw_events (s : State) : (fillRaw s).events = s.events := rfl
@[simp] theorem fillRaw_sinkAnswers (s : State) : (fillRaw s).sinkAnswers = s.sinkAnswers := rfl
@[simp] theorem fillRaw_pending (s : State) : (fillRaw s).pending = s.pending := rfl
@[simp] theorem fillRaw_answer (s : State) : (fillRaw s).answer = s.answer := rfl

/-! Platform reset (R230, R231). -/

@[simp] theorem platformReset_RGB (s : State) : (platformReset s).RGB = State.reset.RGB := rfl
@[simp] theorem platformReset_H (s : State) : (platformReset s).H = State.reset.H := rfl
@[simp] theorem platformReset_S (s : State) : (platformReset s).S = State.reset.S := rfl
@[simp] theorem platformReset_V (s : State) : (platformReset s).V = State.reset.V := rfl
@[simp] theorem platformReset_INT (s : State) : (platformReset s).INT = State.reset.INT := rfl
@[simp] theorem platformReset_POS (s : State) : (platformReset s).POS = State.reset.POS := rfl
@[simp] theorem platformReset_PERIOD (s : State) : (platformReset s).PERIOD = State.reset.PERIOD := rfl
@[simp] theorem platformReset_IDX (s : State) : (platformReset s).IDX = State.reset.IDX := rfl
@[simp] theorem platformReset_FRAME (s : State) : (platformReset s).FRAME = State.reset.FRAME := rfl
@[simp] theorem platformReset_TGT (s : State) : (platformReset s).TGT = State.reset.TGT := rfl
@[simp] theorem platformReset_RAW (s : State) : (platformReset s).RAW = State.reset.RAW := rfl
@[simp] theorem platformReset_CFGIN (s : State) : (platformReset s).CFGIN = State.reset.CFGIN := rfl
@[simp] theorem platformReset_CFG (s : State) : (platformReset s).CFG = State.reset.CFG := rfl
@[simp] theorem platformReset_CFGD (s : State) : (platformReset s).CFGD = State.reset.CFGD := rfl
@[simp] theorem platformReset_ERR (s : State) : (platformReset s).ERR = State.reset.ERR := rfl
@[simp] theorem platformReset_CAUSE (s : State) : (platformReset s).CAUSE = State.reset.CAUSE := rfl
@[simp] theorem platformReset_FINFO (s : State) : (platformReset s).FINFO = State.reset.FINFO := rfl
@[simp] theorem platformReset_PB (s : State) : (platformReset s).PB = State.reset.PB := rfl
@[simp] theorem platformReset_DISP (s : State) : (platformReset s).DISP = s.DISP := rfl
@[simp] theorem platformReset_npixMax (s : State) : (platformReset s).npixMax = s.npixMax := rfl
@[simp] theorem platformReset_events (s : State) : (platformReset s).events = s.events := rfl
@[simp] theorem platformReset_sinkAnswers (s : State) : (platformReset s).sinkAnswers = s.sinkAnswers := rfl
@[simp] theorem platformReset_pending (s : State) : (platformReset s).pending = s.pending := rfl
@[simp] theorem platformReset_answer (s : State) : (platformReset s).answer = State.reset.answer := rfl

end Sys2Proof.Machine
end

