-- ==== Sys2Proof/Laws/Ops.lean ====
section
/-! SUPPORT. What each shared operation of the commands can do, said once. -/

namespace Sys2Proof.Machine

/-- While a fault is recorded every command but `CLRERR` is ignored (R72 step 1). -/
theorem command_err {i : Instr} {s : State} (body : State → State) (h : s.ERR = true) :
    command i s body = .next s := by
  simp [command, h]

/-- A command that needs a configuration raises `NotConfigured` without one (R72 step 3). -/
theorem command_notConfigured {i : Instr} {s : State} (body : State → State) (h : s.ERR = false)
    (hn : needsCfgd i = true) (hc : s.CFGD = false) :
    command i s body = .next (raiseFault .notConfigured (encode i) s) := by
  simp [command, h, hn, hc]

/-- Otherwise the command's own rule decides (R72 step 4). -/
theorem command_ready {i : Instr} {s : State} (body : State → State) (h : s.ERR = false)
    (hc : needsCfgd i = true → s.CFGD = true) : command i s body = .next (body s) := by
  cases hn : needsCfgd i <;> simp_all [command]

/-- Everything dispatch can do: a command always has a next state, and it is one of these three. -/
theorem command_cases {i : Instr} {s t : State} {body : State → State} (h : command i s body = .next t) :
    (s.ERR = true ∧ t = s) ∨
    (s.ERR = false ∧ needsCfgd i = true ∧ s.CFGD = false ∧ t = raiseFault .notConfigured (encode i) s) ∨
    (s.ERR = false ∧ (needsCfgd i = true → s.CFGD = true) ∧ t = body s) := by
  simp only [command, Host.Outcome.next.injEq] at h
  cases he : s.ERR <;> cases hn : needsCfgd i <;> cases hc : s.CFGD <;> simp_all

/-- The finite check either raises `InvalidOperand` or goes on with the value (R95). -/
theorem withFinite_cases (r : Reg) (w : Word) (s : State) (k : ℚ → State) :
    (val w = none ∧ withFinite r w s k = raiseFault .invalidOperand ((offsetOf r).setWidth 32) s) ∨
    (∃ x, val w = some x ∧ withFinite r w s k = k x) := by
  cases h : val w <;> simp [withFinite, h]

theorem withFinite_some {r : Reg} {w : Word} {s : State} {k : ℚ → State} {x : ℚ} (h : val w = some x) :
    withFinite r w s k = k x := by
  simp [withFinite, h]

theorem withFinite_none {r : Reg} {w : Word} {s : State} {k : ℚ → State} (h : val w = none) :
    withFinite r w s k = raiseFault .invalidOperand ((offsetOf r).setWidth 32) s := by
  simp [withFinite, h]

theorem doFlush_ok {s : State} (h : nextAnswer s = .ok) : doFlush s = emitFlush s := by
  simp [doFlush, h]

theorem doFlush_fail {s : State} (h : nextAnswer s = .fail) :
    doFlush s = raiseFault .hardwareWriteFailure 0 (emitFlush s) := by
  simp [doFlush, h]

/-- A flush records its one event and the sink's answer, and faults exactly when that is `fail` (R130). -/
theorem doFlush_cases (s : State) :
    (nextAnswer s = .ok ∧ doFlush s = emitFlush s) ∨
    (nextAnswer s = .fail ∧ doFlush s = raiseFault .hardwareWriteFailure 0 (emitFlush s)) := by
  cases h : nextAnswer s
  · exact .inl ⟨rfl, doFlush_ok h⟩
  · exact .inr ⟨rfl, doFlush_fail h⟩

/-- A one-slot store either faults, with nothing written, or stores in the slot `IDX` of the strip (R128). -/
theorem putRaw_cases (s : State) (k : State → State) :
    (countOf s.CFG ≤ s.IDX.toNat ∧ putRaw s k = raiseFault .indexOutOfRange s.IDX s) ∨
    (s.IDX.toNat < countOf s.CFG ∧
      putRaw s k = k { s with PB := writeSlot s.PB s.IDX.toNat (storedRaw s) }) := by
  unfold putRaw
  split
  · exact .inl ⟨‹_›, rfl⟩
  · exact .inr ⟨by omega, rfl⟩

/-- Loading `RAW` either faults, with nothing written, or goes on with the encoded pixel in `RAW` (R127). -/
theorem encodeRaw_cases (s : State) (k : State → State) :
    (val s.INT = none ∧ encodeRaw s k = raiseFault .invalidOperand 0x28 s) ∨
    (∃ x, val s.INT = some x ∧ encodeRaw s k = k { s with RAW := encodePixel s.RGB x (protoOf s.CFG) }) :=
  withFinite_cases .INT s.INT s _

/-- Without a listed answer the sink's answer is free; with one it is the first (R61). -/
theorem nextAnswer_cons {s : State} {a : SinkAnswer} {l : List SinkAnswer} (h : s.sinkAnswers = a :: l) :
    nextAnswer s = a := by
  simp [nextAnswer, h]

end Sys2Proof.Machine
end

