-- ==== Sys2Proof/Laws/Exec.lean ====
section
/-! SUPPORT. The meaning of each command as dispatch around its own rule, so that a proof about a command starts from
`command_err`, `command_notConfigured` or `command_ready` and does not unfold `exec`. -/

namespace Sys2Proof.Machine

theorem exec_clrerr (s : State) : exec .clrerr s = .next (acknowledge s) := rfl

theorem exec_nop (s : State) : exec .nop s = command .nop s (fun s => s) := rfl

theorem exec_init (s : State) : exec .init s = command .init s (fun s =>
    if s.CFGD || !legalConfig s.npixMax s.CFGIN then raiseFault .invalidConfig s.CFGIN s
    else { s with CFG := s.CFGIN, PB := fillSlots s.PB (countOf s.CFGIN) 0x00000000, CFGD := true }) := rfl

theorem exec_rgb2hsv (s : State) : exec .rgb2hsv s = command .rgb2hsv s (fun s =>
    let c := rgb2hsvQ (colourOf s.RGB)
    { s with H := rnd32 c.h, S := rnd32 c.s, V := rnd32 c.v }) := rfl

theorem exec_hsv2rgb (s : State) : exec .hsv2rgb s = command .hsv2rgb s (fun s =>
    withFinite .H s.H s fun h =>
      withFinite .S s.S s fun sat =>
        withFinite .V s.V s fun v =>
          { s with RGB := packColour (hsv2rgbQ h sat v) }) := rfl

theorem exec_wheel (s : State) : exec .wheel s = command .wheel s (fun s =>
    withFinite .INT s.INT s fun v =>
      if s.PERIOD = 0 then raiseFault .invalidOperand ((offsetOf .PERIOD).setWidth 32) s
      else { s with RGB := packColour (wheelQ s.POS.toNat s.PERIOD.toNat v) }) := rfl

theorem exec_enc (s : State) : exec .enc s = command .enc s (fun s => encodeRaw s fun s => s) := rfl

theorem exec_sel (s : State) : exec .sel s = command .sel s (fun s => selectRaw (s.IDX == s.TGT) s) := rfl

theorem exec_selInv (s : State) : exec .selInv s = command .selInv s (fun s => selectRaw (!(s.IDX == s.TGT)) s) := rfl

theorem exec_tidx (s : State) : exec .tidx s = command .tidx s (fun s => { s with TGT := BitVec.ofNat 32 (cycleIndex s.FRAME.toNat (countOf s.CFG)) }) := rfl

theorem exec_tidxBnc (s : State) : exec .tidxBnc s = command .tidxBnc s (fun s => { s with TGT := BitVec.ofNat 32 (bounceIndex s.FRAME.toNat (countOf s.CFG)) }) := rfl

theorem exec_fade (s : State) : exec .fade s = command .fade s (fun s => { s with INT := rnd32 (((s.FRAME.toNat % 32 : Nat) : ℚ) / 32) }) := rfl

theorem exec_fadeOut (s : State) : exec .fadeOut s = command .fadeOut s (fun s => { s with INT := rnd32 (((32 - s.FRAME.toNat % 32 : Nat) : ℚ) / 32) }) := rfl

theorem exec_wpos (s : State) : exec .wpos s = command .wpos s ((wheelPosition colorCyclePos)) := rfl

theorem exec_wposRb (s : State) : exec .wposRb s = command .wposRb s ((wheelPosition rainbowPos)) := rfl

theorem exec_put (s : State) : exec .put s = command .put s (fun s => putRaw s fun s => s) := rfl

theorem exec_putFl (s : State) : exec .putFl s = command .putFl s (fun s => putRaw s doFlush) := rfl

theorem exec_fill (s : State) : exec .fill s = command .fill s (fillRaw) := rfl

theorem exec_fillFl (s : State) : exec .fillFl s = command .fillFl s (fun s => doFlush (fillRaw s)) := rfl

theorem exec_flush (s : State) : exec .flush s = command .flush s (doFlush) := rfl

theorem exec_set (s : State) : exec .set s = command .set s (fun s => encodeRaw s fun s => putRaw s doFlush) := rfl

theorem exec_setAll (s : State) : exec .setAll s = command .setAll s (fun s => encodeRaw s fun s => doFlush (fillRaw s)) := rfl

theorem exec_clear (s : State) : exec .clear s = command .clear s (fun s =>
    doFlush { s with RAW := darkPixel, PB := fillSlots s.PB (countOf s.CFG) darkPixel }) := rfl

/-- Every command but `CLRERR` is dispatch around a rule of its own. -/
theorem exec_eq_command {i : Instr} (h : i ≠ .clrerr) : ∃ body, ∀ s, exec i s = command i s body := by
  cases i
  case clrerr => exact absurd rfl h
  case nop => exact ⟨_, exec_nop⟩
  case init => exact ⟨_, exec_init⟩
  case rgb2hsv => exact ⟨_, exec_rgb2hsv⟩
  case hsv2rgb => exact ⟨_, exec_hsv2rgb⟩
  case wheel => exact ⟨_, exec_wheel⟩
  case enc => exact ⟨_, exec_enc⟩
  case sel => exact ⟨_, exec_sel⟩
  case selInv => exact ⟨_, exec_selInv⟩
  case tidx => exact ⟨_, exec_tidx⟩
  case tidxBnc => exact ⟨_, exec_tidxBnc⟩
  case fade => exact ⟨_, exec_fade⟩
  case fadeOut => exact ⟨_, exec_fadeOut⟩
  case wpos => exact ⟨_, exec_wpos⟩
  case wposRb => exact ⟨_, exec_wposRb⟩
  case put => exact ⟨_, exec_put⟩
  case putFl => exact ⟨_, exec_putFl⟩
  case fill => exact ⟨_, exec_fill⟩
  case fillFl => exact ⟨_, exec_fillFl⟩
  case flush => exact ⟨_, exec_flush⟩
  case set => exact ⟨_, exec_set⟩
  case setAll => exact ⟨_, exec_setAll⟩
  case clear => exact ⟨_, exec_clear⟩

/-- Every command has a next state (R235). -/
theorem exec_answers_next (i : Instr) (s : State) : ∃ t, exec i s = .next t := by
  by_cases h : i = .clrerr
  · subst h; exact ⟨_, exec_clrerr s⟩
  · obtain ⟨body, hb⟩ := exec_eq_command h
    exact ⟨_, hb s⟩

end Sys2Proof.Machine
end

