-- ==== Sys2Proof/Laws/Numerics.lean ====
section
/-! SUPPORT. Small facts about the exact arithmetic: powers of two, the range of a channel and of the 5-bit field. -/

namespace Sys2Proof.Machine

/-- `pow2` is the power of two. -/
theorem pow2_eq_zpow : ∀ k : Int, pow2 k = (2 : ℚ) ^ k
  | .ofNat n => by simp [pow2]
  | .negSucc n => by simp [pow2, zpow_negSucc]

theorem pow2_pos (k : Int) : 0 < pow2 k := by
  rw [pow2_eq_zpow]; positivity

/-- The rounding moves a value by at most one half. -/
theorem rhe_bounds (q : ℚ) : q - 1 / 2 ≤ rhe q ∧ (rhe q : ℚ) ≤ q + 1 / 2 := by
  have h1 := Int.floor_le q
  have h2 := Int.lt_floor_add_one q
  simp only [rhe]
  split_ifs <;> push_cast <;> constructor <;> linarith

/-- Rounding an integer gives the integer. -/
theorem rhe_intCast (n : Int) : rhe (n : ℚ) = n := by
  simp [rhe]

theorem clamp8_le (n : Int) : clamp8 n ≤ 255 := by
  unfold clamp8; split_ifs <;> omega

/-- Clamping changes nothing inside 0 .. 255. -/
theorem clamp8_of_mem {n : Int} (h0 : 0 ≤ n) (h1 : n ≤ 255) : clamp8 n = n.toNat := by
  unfold clamp8; split_ifs <;> omega

theorem chan_le (x : ℚ) : chan x ≤ 255 := clamp8_le _

/-- Every channel a conversion returns is in 0 .. 255. -/
theorem hsv2rgbQ_le (h s v : ℚ) :
    (hsv2rgbQ h s v).r ≤ 255 ∧ (hsv2rgbQ h s v).g ≤ 255 ∧ (hsv2rgbQ h s v).b ≤ 255 := by
  unfold hsv2rgbQ
  dsimp only
  split <;> exact ⟨chan_le _, chan_le _, chan_le _⟩

theorem enc4_le (x : ℚ) : enc4 x ≤ 31 := by
  unfold enc4; dsimp only; split_ifs <;> omega

theorem countOf_lt (cfg : Word) : countOf cfg < 65536 := (cfg.extractLsb' 0 16).isLt

theorem colourOf_le (rgb : BitVec 24) :
    (colourOf rgb).r ≤ 255 ∧ (colourOf rgb).g ≤ 255 ∧ (colourOf rgb).b ≤ 255 := by
  have h1 := (rgb.extractLsb' 16 8).isLt
  have h2 := (rgb.extractLsb' 8 8).isLt
  have h3 := (rgb.extractLsb' 0 8).isLt
  simp only [colourOf]
  omega

/-- The configurations `INIT` accepts, as a proposition (R120). -/
theorem legalConfig_iff {n : Nat} {cfg : Word} :
    legalConfig n cfg = true ↔
      reservedOf cfg = 0 ∧ permOf cfg ≤ 5 ∧ 1 ≤ countOf cfg ∧ countOf cfg ≤ n := by
  simp [legalConfig, and_assoc]

end Sys2Proof.Machine
end

