-- ==== Sys2Proof/Laws/PerInstr.lean ====
section
/-! SUPPORT. A statement made of every command, one lemma for each constructor: its word has the fields of its row of
R73, and R72 step 2 lets them pass. -/

namespace Sys2Proof.Laws.Encodes

/-- The command's word splits into the fields its row gives, and they are well formed. -/
def Statement (i : Instr) : Prop :=
  splitWord (encode i) = fieldsOf i ∧ (fieldsOf i).wellFormed = true ∧ i.wellFormed = true

theorem nop : Statement .nop := by unfold Statement; decide
theorem init : Statement .init := by unfold Statement; decide
theorem clrerr : Statement .clrerr := by unfold Statement; decide
theorem rgb2hsv : Statement .rgb2hsv := by unfold Statement; decide
theorem hsv2rgb : Statement .hsv2rgb := by unfold Statement; decide
theorem wheel : Statement .wheel := by unfold Statement; decide
theorem enc : Statement .enc := by unfold Statement; decide
theorem sel : Statement .sel := by unfold Statement; decide
theorem selInv : Statement .selInv := by unfold Statement; decide
theorem tidx : Statement .tidx := by unfold Statement; decide
theorem tidxBnc : Statement .tidxBnc := by unfold Statement; decide
theorem fade : Statement .fade := by unfold Statement; decide
theorem fadeOut : Statement .fadeOut := by unfold Statement; decide
theorem wpos : Statement .wpos := by unfold Statement; decide
theorem wposRb : Statement .wposRb := by unfold Statement; decide
theorem put : Statement .put := by unfold Statement; decide
theorem putFl : Statement .putFl := by unfold Statement; decide
theorem fill : Statement .fill := by unfold Statement; decide
theorem fillFl : Statement .fillFl := by unfold Statement; decide
theorem flush : Statement .flush := by unfold Statement; decide
theorem set : Statement .set := by unfold Statement; decide
theorem setAll : Statement .setAll := by unfold Statement; decide
theorem clear : Statement .clear := by unfold Statement; decide

end Sys2Proof.Laws.Encodes
end

