-- ==== Sys2Proof/Laws/Step.lean ====
section
/-! SUPPORT. What one step can do, said once: nothing, a reset, register bookkeeping, or a command word. -/

namespace Sys2Proof.Machine

/-- A write to a register other than `CMD` changes that register and the answer only. -/
theorem writeRegister_next {s t : State} {r : Reg} {v : Word} (hr : r ≠ .CMD)
    (h : writeRegister r v s = .next t) :
    t = { s with
      CFGIN := t.CFGIN, RGB := t.RGB, H := t.H, S := t.S, V := t.V, INT := t.INT, POS := t.POS, PERIOD := t.PERIOD
      IDX := t.IDX, FRAME := t.FRAME, TGT := t.TGT, RAW := t.RAW, answer := t.answer } := by
  cases r
  case CMD => exact absurd rfl hr
  all_goals cases h; rfl

/-- A step that goes on is one of four: no input; a reset; a transaction that touches host-writable registers and the
answer alone; a word written to `CMD`. -/
theorem step_cases {s t : State} (h : step s = .next t) :
    (s.pending = [] ∧ t = s) ∨
    (∃ rest, s.pending = .reset :: rest ∧ t = platformReset { s with pending := rest }) ∨
    (∃ tr rest, s.pending = .bus tr :: rest ∧
      t = { s with
        CFGIN := t.CFGIN, RGB := t.RGB, H := t.H, S := t.S, V := t.V, INT := t.INT, POS := t.POS, PERIOD := t.PERIOD
        IDX := t.IDX, FRAME := t.FRAME, TGT := t.TGT, RAW := t.RAW, answer := t.answer, pending := rest }) ∨
    (∃ w rest, s.pending = .bus (.write 4 0x00 w) :: rest ∧
      runWord w { s with pending := rest, answer := some (.write .okay) } = .next t) := by
  unfold step at h
  split at h
  · cases h; exact .inl ⟨‹_›, rfl⟩
  · rename_i i rest hp
    right
    cases i with
    | secondMaster _ => cases h
    | reset => cases h; exact .inl ⟨_, hp, rfl⟩
    | bus tr =>
      right
      simp only [receive, serve] at h
      split at h
      · cases h; exact .inl ⟨_, _, hp, rfl⟩
      · cases h; exact .inl ⟨_, _, hp, rfl⟩
      · rename_i wd off v r htg
        by_cases hr : r = .CMD
        · subst hr
          right
          simp only [target] at htg
          split at htg
          · rename_i hwf
            simp only [Transaction.wellFormed, Transaction.widthLegal, Bool.and_eq_true, beq_iff_eq] at hwf
            have : off = 0 := by
              revert htg; clear hp hwf h; revert off; decide +kernel
            subst this
            obtain ⟨rfl, _⟩ := hwf
            exact ⟨_, _, hp, h⟩
          · cases htg
        · exact .inl ⟨_, _, hp, writeRegister_next hr h⟩
      · cases h; exact .inl ⟨_, _, hp, rfl⟩

/-- A word written to `CMD` runs its command, or raises `IllegalCommand` unless a fault is recorded (R72, R75). -/
theorem runWord_cases {w : Word} {s t : State} (h : runWord w s = .next t) :
    (∃ i, decode w = .ok i ∧ exec i s = .next t) ∨
    (s.ERR = true ∧ t = s) ∨
    (s.ERR = false ∧ (∃ e, decode w = .error e) ∧ t = raiseFault .illegalCommand w s) := by
  unfold runWord at h
  split at h
  · exact .inl ⟨_, ‹_›, h⟩
  · cases h
    cases he : s.ERR
    · exact .inr (.inr ⟨rfl, ⟨_, ‹_›⟩, by simp⟩)
    · exact .inr (.inl ⟨rfl, by simp⟩)

end Sys2Proof.Machine
end

