-- ==== Sys2Proof/Machine/HostPrograms.lean ====
section
/-! DEFINITION. The host's side (30_encoding.md R78 to R80, 44_sequences.md): assembler lines and pseudo-instructions as
lists of transactions, the named colours (R12), and the source's operations and effects as host sequences. Nothing
here adds state or behaviour to the CMU; `sleep` and `check()` are the host's and yield no transaction (R187). -/

namespace Sys2Proof.Machine

/-- `WR <reg>, <value>` (R78). -/
def wr (r : Reg) (v : Word) : List Transaction := [.write 4 (offsetOf r) v]

/-- `WR <offset>, <value>` with a numeric offset (R78). -/
def wrAt (off : BitVec 8) (v : Word) : List Transaction := [.write 4 off v]

/-- `RD <offset>` with a numeric offset (R78). -/
def rdAt (off : BitVec 8) : List Transaction := [.read 4 off]

/-- `RD <reg>` (R78). -/
def rd (r : Reg) : List Transaction := [.read 4 (offsetOf r)]

/-- `<MNEMONIC>[.<FLAG>]` (R78): the command word written to `CMD`. -/
def cmd (i : Instr) : List Transaction := wr .CMD (encode i)

/-- The literal `#RRGGBB` (R79). -/
def colourLit (r g b : Byte) : Word := 0#8 ++ r ++ g ++ b

/-- The literal `f:<decimal>` of the exact decimal value (R79). R92 rounds `q ≥ 0`; a negative literal is the rounded
magnitude with the sign bit set, as in the vectors of 95_test_vectors.md (log entry 13). -/
def floatLit (q : ℚ) : Word := if q < 0 then 0x80000000 ||| rnd32 (-q) else rnd32 q

/-- The named colours as words for `RGB` (R12). -/
def black : Word := 0x000000
def red : Word := 0xFF0000
def green : Word := 0x00FF00
def blue : Word := 0x0000FF
def cyan : Word := 0x00FFFF
def magenta : Word := 0xFF00FF
def yellow : Word := 0xFFFF00

/-- `LDRGB` (R80). -/
def ldrgb (colour : Word) : List Transaction := wr .RGB colour
/-- `LDINT`, `WR INT, <bits>` (R80). DESIGN CHOICE: an intensity is carried as the bits written to `INT`, `floatLit x` for
a real `x`. R187 lets an intensity be no number, for which R79 has no literal; here it is any such pattern (log entry
17). -/
def ldint (bits : Word) : List Transaction := wr .INT bits
/-- `LDIDX` (R80). DESIGN CHOICE: an index of 2^32 or more is reduced modulo 2^32 (log entry 16). -/
def ldidx (n : Nat) : List Transaction := wr .IDX (BitVec.ofNat 32 n)
/-- `LDFRAME` (R80). DESIGN CHOICE: the frame numbers of R183 and R184 are unbounded and a bus write takes 32 bits; a number
of 2^32 or more is reduced modulo 2^32 (log entry 16). -/
def ldframe (n : Nat) : List Transaction := wr .FRAME (BitVec.ofNat 32 n)
/-- `CONFIG count, proto, perm` (R80). DESIGN CHOICE: a sum of 2^32 or more is reduced modulo 2^32 (log entry 16). -/
def config (count : Nat) (proto : Protocol) (perm : Nat) : List Transaction :=
  wr .CFGIN (BitVec.ofNat 32 (count + (if proto = .threeChannel then 0 else 1) * 2 ^ 16 + perm * 2 ^ 17)) ++ cmd .init
/-- `SETPIX` (R80). -/
def setpix : List Transaction := cmd .set
/-- `SETALL` (R80). -/
def setall : List Transaction := cmd .setAll
/-- `DARK` (R80). -/
def dark : List Transaction := wr .RAW darkPixel

/-- `set(color, intensity, pos)` (R181): with a position `SET`, without one `SET.ALL`. `x` is the intensity's bits. -/
def hostSet (colour x : Word) : Option Nat → List Transaction
  | some p => ldrgb colour ++ ldint x ++ ldidx p ++ cmd .set
  | none => ldrgb colour ++ ldint x ++ cmd .setAll

/-- `clear()` (R181). -/
def hostClear : List Transaction := cmd .clear

/-- One frame: the per-pixel lines for `k` = 0 .. count - 1 (R180). -/
def perPixel (count : Nat) (body : Nat → List Transaction) : List Transaction := (List.range count).flatMap body

/-- `color_cycle(wait, loop, intensity)` (R182); `x` is the intensity's bits. -/
def colorCycle (count loop : Nat) (x : Word) : List Transaction :=
  wr .PERIOD 360 ++
    (List.range loop).flatMap fun _ =>
      (List.range 360).flatMap fun j =>
        ldframe j ++
          perPixel count (fun k =>
            ldidx k ++ cmd .wpos ++ ldint (floatLit 1) ++ cmd .wheel ++ ldint x ++ cmd .enc ++ cmd .put) ++
          cmd .flush

/-- `cycle(color, intensity, wait, loop, invert)` (R183); `x` is the intensity's bits. -/
def cycle (count : Nat) (colour x : Word) (loop : Nat) (invert : Bool) : List Transaction :=
  ldrgb colour ++ ldint x ++
    (List.range (loop * count)).flatMap fun i =>
      ldframe i ++ cmd .tidx ++
        perPixel count (fun k => ldidx k ++ cmd (if invert then .selInv else .sel) ++ cmd .put) ++
        cmd .flush

/-- `bounce(color, wait, repeats)` (R184). -/
def bounce (count : Nat) (colour : Word) (repeats : Nat) : List Transaction :=
  ldrgb colour ++ ldint (floatLit 1) ++
    (List.range (repeats * count)).flatMap fun f =>
      ldframe f ++ cmd .tidxBnc ++
        perPixel count (fun k => ldidx k ++ cmd .selInv ++ cmd .put) ++
        cmd .flush

/-- The `SET` of a fade step: with a position that pixel, without one the whole strip (R185). -/
def fadeStep (pos : Option Nat) : List Transaction := if pos.isSome then cmd .set else cmd .setAll

/-- `fade(color, wait, repeats, pos, fadein, fadeout)` (R185). -/
def fade (colour : Word) (repeats : Nat) (pos : Option Nat) (fadein fadeout : Bool) : List Transaction :=
  ldrgb colour ++ (pos.map ldidx).getD [] ++
    (List.range repeats).flatMap fun _ =>
      (if fadein then (List.range 32).flatMap fun k => ldframe k ++ cmd .fade ++ fadeStep pos else []) ++
      (if fadeout then
        ((List.range 32).flatMap fun k => ldframe k ++ cmd .fadeOut ++ fadeStep pos) ++
          (if pos.isSome then dark ++ cmd .putFl else cmd .clear)
       else [])

/-- `rainbow_cycle(wait)` with a repeat count (R186). -/
def rainbowCycle (count repeats : Nat) : List Transaction :=
  wr .PERIOD 255 ++ ldint (floatLit 1) ++
    (List.range repeats).flatMap fun _ =>
      (List.range 255).flatMap fun j =>
        ldframe j ++
          perPixel count (fun i => ldidx i ++ cmd .wposRb ++ cmd .wheel ++ cmd .enc ++ cmd .put) ++
          cmd .flush

/-- A host program waits to be served: its transactions come after those already pending. -/
def loadProgram (p : List Transaction) (s : State) : State := { s with pending := s.pending ++ p.map .bus }

end Sys2Proof.Machine
end

