-- ==== Sys2Proof/Tests/Slice0.lean ====
section
/-! SUPPORT. Tests: the checks of WellFormed on ill-formed terms, every command's word, one step of each command with a
vector of 95_test_vectors.md, and for each statement with hypotheses a state and operands that meet them. -/

namespace Sys2Proof.Tests

open Machine

/-! ## Ill-formed terms are refused -/

/-- R71: a word with bit 9 set. -/
theorem test_reserved_bit_refused : CommandWord.wellFormed ⟨0x01, false, 1⟩ = false := by decide
/-- R73: `OP` 0x03 is no opcode. -/
theorem test_unused_opcode_refused : CommandWord.wellFormed ⟨0x03, false, 0⟩ = false := by decide
/-- R71: the flag on `ENC`, which has none. -/
theorem test_flag_without_meaning_refused : CommandWord.wellFormed ⟨0x20, true, 0⟩ = false := by decide
/-- R56: a 2-byte access. -/
theorem test_halfword_access_refused : Transaction.wellFormed (.read 2 0x18) = false := by decide
/-- R56: an access at offset 0x19. -/
theorem test_misaligned_access_refused : Transaction.wellFormed (.write 4 0x19 0) = false := by decide

/-! ## Each command's word, `Z` then `F` then `OP`, written out from R71 and R73 -/

theorem test_decode_nop : decode 0b00000000000000000000000000000000#32 = .ok .nop := by decide
theorem test_decode_init : decode 0b00000000000000000000000000000001#32 = .ok .init := by decide
theorem test_decode_clrerr : decode 0b00000000000000000000000000000010#32 = .ok .clrerr := by decide
theorem test_decode_rgb2hsv : decode 0b00000000000000000000000000010000#32 = .ok .rgb2hsv := by decide
theorem test_decode_hsv2rgb : decode 0b00000000000000000000000000010001#32 = .ok .hsv2rgb := by decide
theorem test_decode_wheel : decode 0b00000000000000000000000000010010#32 = .ok .wheel := by decide
theorem test_decode_enc : decode 0b00000000000000000000000000100000#32 = .ok .enc := by decide
theorem test_decode_sel : decode 0b00000000000000000000000000100001#32 = .ok .sel := by decide
theorem test_decode_selInv : decode 0b00000000000000000000000100100001#32 = .ok .selInv := by decide
theorem test_decode_tidx : decode 0b00000000000000000000000000100010#32 = .ok .tidx := by decide
theorem test_decode_tidxBnc : decode 0b00000000000000000000000100100010#32 = .ok .tidxBnc := by decide
theorem test_decode_fade : decode 0b00000000000000000000000000100011#32 = .ok .fade := by decide
theorem test_decode_fadeOut : decode 0b00000000000000000000000100100011#32 = .ok .fadeOut := by decide
theorem test_decode_wpos : decode 0b00000000000000000000000000100100#32 = .ok .wpos := by decide
theorem test_decode_wposRb : decode 0b00000000000000000000000100100100#32 = .ok .wposRb := by decide
theorem test_decode_put : decode 0b00000000000000000000000000110000#32 = .ok .put := by decide
theorem test_decode_putFl : decode 0b00000000000000000000000100110000#32 = .ok .putFl := by decide
theorem test_decode_fill : decode 0b00000000000000000000000000110001#32 = .ok .fill := by decide
theorem test_decode_fillFl : decode 0b00000000000000000000000100110001#32 = .ok .fillFl := by decide
theorem test_decode_flush : decode 0b00000000000000000000000000110010#32 = .ok .flush := by decide
theorem test_decode_set : decode 0b00000000000000000000000000110011#32 = .ok .set := by decide
theorem test_decode_setAll : decode 0b00000000000000000000000100110011#32 = .ok .setAll := by decide
theorem test_decode_clear : decode 0b00000000000000000000000000110100#32 = .ok .clear := by decide

/-- The illegal words of 95_test_vectors.md 2.12. -/
theorem test_decode_illegal :
    [0x100, 0x3, 0xF, 0x13, 0x25, 0x35, 0xFF, 0x200, 0x80000001, 0x10010, 0x102, 0x120, 0x132, 0x134].any
      (fun w => (decode w).isOk) = false ∧
    decode 0x00000100 = .error .flagNotAllowed ∧ decode 0x00000035 = .error .unknownOpcode ∧
    decode 0x80000001 = .error .reservedBits := by decide

/-- The row of `FADE.OUT`, read as the opcode table numbers its bits. -/
theorem test_decodeTableWord : decodeTableWord 32 0x123 = some .fadeOut := by decide

/-! ## One step of each command -/

/-- The command has a next state, and it satisfies `p`. -/
def ran (i : Instr) (s : State) (p : State → Bool) : Bool :=
  match exec i s with
  | .next t => p t
  | _ => false

/-- The step has a next state, and it satisfies `p`. -/
def stepped (s : State) (p : State → Bool) : Bool :=
  match step s with
  | .next t => p t
  | _ => false

/-- From reset with a configuration latched, the next flush to be answered `a`. -/
def ready (cfg : Word) (a : SinkAnswer := .ok) : State :=
  { State.reset with CFG := cfg, CFGD := true, CFGIN := cfg, sinkAnswers := [a] }

/-- A fault is recorded with this code and this `FINFO`. -/
def faulted (code : BitVec 8) (info : Word) (t : State) : Bool := t.ERR && t.CAUSE == code && t.FINFO == info

/-- The buffer of a strip of `n` pixels. -/
def strip (t : State) (n : Nat) : List Word := snapshot t.PB n

/-- 2.12. -/
theorem test_nop : ran .nop State.reset (fun t => t == State.reset) = true := by decide
/-- 2.12: word 0x00000035 was recorded. -/
theorem test_clrerr : ran .clrerr { ready 2 with ERR := true, CAUSE := 5, FINFO := 0x35 }
    (fun t => t == ready 2) = true := by decide
/-- 2.11: 8 pixels, `4CH`, `PERM` 5. -/
theorem test_init : ran .init { State.reset with CFGIN := 0x000B0008 }
    (fun t => t.CFG == 0x000B0008 && t.CFGD && !t.ERR) = true := by decide
/-- 2.11: a count above `NPIX_MAX` = 1024. -/
theorem test_init_too_long : ran .init { State.reset with CFGIN := 0x00000401 }
    (fun t => faulted 1 0x00000401 t && t.CFG == 0 && !t.CFGD) = true := by decide
/-- 2.2: blue is the maximum. -/
theorem test_rgb2hsv : ran .rgb2hsv { State.reset with RGB := 0x010203 }
    (fun t => t.H == 0x3F155555 && t.S == 0x3F2AAAAB && t.V == 0x3C40C0C1) = true := by decide +kernel
/-- 2.2: the largest hue. -/
theorem test_rgb2hsv_wrap : ran .rgb2hsv { State.reset with RGB := 0xFF0001 }
    (fun t => t.H == 0x3F7FD52A && t.S == 0x3F800000 && t.V == 0x3F800000) = true := by decide +kernel
/-- 2.3: sector 5. -/
theorem test_hsv2rgb : ran .hsv2rgb { State.reset with H := 0x3F666666, S := 0x3F666666, V := 0x3F666666 }
    (fun t => t.RGB == 0xE51793) = true := by decide +kernel
/-- 2.3: the registers are checked in the order `H`, `S`, `V`. -/
theorem test_hsv2rgb_order : ran .hsv2rgb { State.reset with H := 0x7FC00000, S := 0x7F800000, V := 0xFFC00000 }
    (faulted 6 0x1C) = true := by decide
/-- 2.4: 1000 mod 360, half value. -/
theorem test_wheel : ran .wheel { State.reset with POS := 1000, INT := 0x3F000000 }
    (fun t => t.RGB == 0x550080) = true := by decide +kernel
/-- 2.4: period 0. -/
theorem test_wheel_no_period : ran .wheel { State.reset with PERIOD := 0 } (faulted 6 0x30) = true := by decide
/-- 2.5, `3CH`: the value is replaced. -/
theorem test_enc_three : ran .enc { ready 8 with RGB := 0x010203, INT := 0x3F666666 }
    (fun t => t.RAW == 0x004C99E5) = true := by decide +kernel
/-- 2.5, `4CH`: just above 1/31. -/
theorem test_enc_four : ran .enc { ready 0x00010008 with RGB := 0xC86432, INT := 0x3D042109 }
    (fun t => t.RAW == 0x02C86432) = true := by decide +kernel
/-- 2.7: lit only at `TGT`. -/
theorem test_sel : ran .sel { ready 0x00010004 with RGB := 0x00FFFF, TGT := 2, IDX := 2, INT := 0x3F000000 }
    (fun t => t.RAW == 0x1000FFFF) = true := by decide +kernel
/-- 2.7: `INT` is checked although the pixel is dark. -/
theorem test_sel_dark_checks : ran .sel { ready 4 with TGT := 2, IDX := 1, INT := 0x7F800000, RAW := 0xDEADBEEF }
    (fun t => faulted 6 0x28 t && t.RAW == 0xDEADBEEF) = true := by decide
/-- 2.7: an index outside the strip is no fault. -/
theorem test_selInv : ran .selInv { ready 0x00010004 with RGB := 0x00FFFF, TGT := 2, IDX := 7, INT := 0x3F000000 }
    (fun t => t.RAW == 0x1000FFFF && !t.ERR) = true := by decide +kernel
/-- 2.7. -/
theorem test_tidx : ran .tidx { ready 4 with FRAME := 0xFFFFFFFF } (fun t => t.TGT == 3) = true := by decide
/-- 2.7: an odd traversal runs backward. -/
theorem test_tidxBnc : ran .tidxBnc { ready 3 with FRAME := 4 } (fun t => t.TGT == 1) = true := by decide
/-- 2.8. -/
theorem test_fade : ran .fade { State.reset with FRAME := 17 } (fun t => t.INT == 0x3F080000) = true := by
  decide +kernel
/-- 2.8: step 32 is step 0. -/
theorem test_fadeOut : ran .fadeOut { State.reset with FRAME := 32, INT := 0 } (fun t => t.INT == 0x3F800000) = true := by
  decide +kernel
/-- 2.9: the sum is not reduced. -/
theorem test_wpos : ran .wpos { ready 7 with IDX := 6, FRAME := 359 } (fun t => t.POS == 667) = true := by decide
/-- 2.9: the first index outside the strip. -/
theorem test_wpos_outside : ran .wpos { ready 8 with IDX := 8 } (faulted 2 8) = true := by decide
/-- 2.9. -/
theorem test_wposRb : ran .wposRb { ready 3 with IDX := 1, FRAME := 725 } (fun t => t.POS == 42) = true := by
  decide
/-- 2.6: `PERM` 3. -/
theorem test_put : ran .put { ready 0x00060008 with RAW := 0x1F112233 }
    (fun t => t.PB == [(0, 0x1F223311)] && t.events == []) = true := by decide
/-- 2.10 step 4. -/
theorem test_put_outside : ran .put { ready 3 with IDX := 0xFFFFFFFF, RAW := 1 }
    (fun t => faulted 2 0xFFFFFFFF t && t.PB == []) = true := by decide
/-- 2.10 step 2. -/
theorem test_putFl : ran .putFl { ready 3 with PB := [(0, 0x00112233)], IDX := 2, RAW := 0x00112233 }
    (fun t => t.events == [⟨[0x00112233, 0, 0x00112233], .threeChannel, .ok⟩] && t.DISP == strip t 3) = true := by
  decide
/-- 2.10 step 3: no flush. -/
theorem test_putFl_outside : ran .putFl { ready 3 with IDX := 3 }
    (fun t => faulted 2 3 t && t.events == []) = true := by decide
/-- 2.10 step 5: all 32 bits are copied. -/
theorem test_fill : ran .fill { ready 3 with RAW := 0xFFABCDEF }
    (fun t => strip t 4 == [0xFFABCDEF, 0xFFABCDEF, 0xFFABCDEF, 0] && t.events == []) = true := by decide
/-- P4 step 37: a failed flush keeps the buffer. -/
theorem test_fillFl : ran .fillFl { ready 0x000B0004 .fail with RAW := 0x10C86432 }
    (fun t => faulted 4 0 t && strip t 4 == [0x103264C8, 0x103264C8, 0x103264C8, 0x103264C8] &&
      t.events.length == 1) = true := by decide
/-- P4 step 43. -/
theorem test_flush : ran .flush { ready 0x000B0002 with PB := [(0, 0x103264C8)] }
    (fun t => t.events == [⟨[0x103264C8, 0], .fourChannelWithIntensity, .ok⟩] && t.DISP == [0x103264C8, 0] &&
      !t.ERR) = true := by decide
/-- 2.10 step 10. -/
theorem test_set : ran .set { ready 3 .fail with RGB := 0xFFFFFF, IDX := 1 }
    (fun t => faulted 4 0 t && strip t 3 == [0, 0x00FFFFFF, 0] && t.RAW == 0x00FFFFFF) = true := by decide +kernel
/-- P4 step 15: `RAW` is written before the index is checked. -/
theorem test_set_outside : ran .set { ready 0x000B0004 with RGB := 0xC86432, INT := 0x3F000000, IDX := 9 }
    (fun t => faulted 2 9 t && t.RAW == 0x10C86432 && t.PB == [] && t.events == []) = true := by decide +kernel
/-- 2.10 step 8. -/
theorem test_setAll : ran .setAll { ready 3 with RGB := 0x102030 }
    (fun t => strip t 3 == [0x00102030, 0x00102030, 0x00102030] && t.DISP == strip t 3 && t.RAW == 0x00102030) = true := by
  decide +kernel
/-- 2.10 step 6. -/
theorem test_clear : ran .clear { ready 3 with PB := [(0, 0xFFABCDEF), (2, 1)], RAW := 7, RGB := 5 }
    (fun t => t.PB == [] && t.RAW == 0 && t.RGB == 5 && t.DISP == [0, 0, 0]) = true := by decide

/-! ## The bus, the step and the sink -/

/-- The row of `FADE.OUT` runs as the first command after reset (2.12). -/
theorem test_withFetchWord : stepped (State.reset.withFetchWord 32 0x123)
    (fun t => t.answer == some (.write .okay) && t.INT == 0x3F800000 && t.pending == []) = true := by decide +kernel
/-- 2.13: `RGB` drops bits 31:24. -/
theorem test_write_rgb : stepped { State.reset with pending := [.bus (.write 4 0x18 0xAB123456)] }
    (fun t => t.RGB == 0x123456 && t.answer == some (.write .okay)) = true := by decide
/-- 2.13: a read-only register. -/
theorem test_write_status : stepped { State.reset with pending := [.bus (.write 4 0x04 0xFFFFFFFF)] }
    (fun t => t.answer == some (.write .error) && !t.ERR && !t.CFGD) = true := by decide
/-- 2.13: an unmapped offset. -/
theorem test_read_unmapped : stepped { State.reset with pending := [.bus (.read 4 0x44)] }
    (fun t => t.answer == some (.read .error 0)) = true := by decide
/-- R55 and R61 on one slot of a FourChannelWithIntensity strip. -/
theorem test_sink_calls : sinkCalls ⟨[0x1F112233], .fourChannelWithIntensity, .ok⟩ =
    [.setRaw 0 [0x11, 0x22, 0x33, 0x1F], .flush] := by decide
/-- R80: `CONFIG 4, FourChannelWithIntensity, 5` is lines 5 and 9 of P4. -/
theorem test_config : config 4 .fourChannelWithIntensity 5 =
    [.write 4 0x14 0x000B0004, .write 4 0x00 0x00000001] := by decide
/-- R187: an intensity that is no number, in the sequence of `set`. -/
theorem test_set_with_nan : hostSet red 0x7FC00000 (some 0) =
    [.write 4 0x18 0x00FF0000, .write 4 0x28 0x7FC00000, .write 4 0x34 0, .write 4 0x00 0x33] := by decide
/-- R38: reset has the canonical pixel memory. -/
theorem test_reset_memory : Memory.wf State.reset.PB = true := by decide

/-! ## Witnesses: a state and operands that meet the hypotheses of each statement, clause by clause -/

/-- The intensity that reset gives, 1.0. -/
theorem test_reset_intensity : val State.reset.INT = some 1 := by decide +kernel

theorem test_witness_DecodeInvertsEncode : Instr.clear.wellFormed = true ∧ Instr.nop.wellFormed = true := by decide

/-- A waiting write of a command's word, of the first and of the last opcode. -/
theorem test_witness_StepRunsTheDecodedCommand :
    (State.reset.withFetchWord 32 0x34).pending = .bus (.write 4 0x00 0x34) :: [] ∧ decode 0x34 = .ok .clear ∧
    decode 0x00 = .ok .nop := by decide

/-- Each way of being illegal at its edge: bit 9, bit 31, the opcode after the last, the flag on `CLEAR`. -/
theorem test_witness_IllegalWordsRaiseIllegalCommand :
    (State.reset.withFetchWord 32 0x200).pending = .bus (.write 4 0x00 0x200) :: [] ∧ State.reset.ERR = false ∧
    (0x200#32).extractLsb' 9 23 ≠ 0 ∧ (0x80000001#32).extractLsb' 9 23 ≠ 0 ∧
    (0x35#32).extractLsb' 0 8 ∉ opcodes ∧
    (0x134#32).getLsbD 8 = true ∧
    (0x134#32).extractLsb' 0 8 ∈ ([0x00, 0x01, 0x02, 0x10, 0x11, 0x12, 0x20, 0x32, 0x34] : List (BitVec 8)) := by
  decide

/-- A recorded fault, met by `CLRERR` and by its neighbour word. -/
theorem test_witness_RecordedFaultIgnoresCommands :
    ({ ready 2 with ERR := true, CAUSE := 5, FINFO := 0x35, pending := [.bus (.write 4 0x00 0x102)] } : State).ERR = true ∧
    (0x102 : Word) ≠ 0x00000002 ∧ (0x2 : Word) = 0x00000002 := by decide

theorem test_witness_DispatchGatesCommands :
    Instr.nop ≠ .clrerr ∧ ({ State.reset with ERR := true, CAUSE := 1 } : State).ERR = true ∧
    State.reset.ERR = false ∧ State.reset.CFGD = false ∧
    (∀ i ∈ ([.enc, .clear] : List Instr), i ∈ ([.enc, .sel, .selInv, .tidx, .tidxBnc, .wpos, .wposRb, .put, .putFl, .fill,
      .fillFl, .flush, .set, .setAll, .clear] : List Instr)) := by decide

theorem test_witness_ClrerrClearsTheRecordedFault :
    ({ ready 2 with ERR := true, CAUSE := 5, FINFO := 0x35 } : State).ERR = true ∧ Instr.init ≠ .clrerr := by decide

theorem test_witness_Rgb2hsvWritesTheRoundedHsv : ({ State.reset with RGB := 0xFF0001 } : State).ERR = false := by decide

/-- The largest finite pattern and the infinity after it, in each register. -/
theorem test_witness_Hsv2rgbChecksThenConverts :
    State.reset.ERR = false ∧ val 0x7F800000 = none ∧ (val 0x7F7FFFFF).isSome = true ∧
    val 0xFFFFFFFF = none ∧ (val 0x00000001).isSome = true := by decide

/-- The smallest period is met and 0 is not. -/
theorem test_witness_WheelChecksThenConverts :
    State.reset.ERR = false ∧ val 0x7F800000 = none ∧ val State.reset.INT = some 1 ∧
    ({ State.reset with PERIOD := 0 } : State).PERIOD = 0 ∧ ({ State.reset with PERIOD := 1 } : State).PERIOD ≠ 0 :=
  ⟨by decide, by decide, test_reset_intensity, by decide, by decide⟩

/-- Each class of pattern at the ends of its exponent range. -/
theorem test_witness_FloatPatternsDenoteTheirValues :
    (255 : BitVec 8).toNat = 255 ∧ (0 : BitVec 8).toNat = 0 ∧ 1 ≤ (1 : BitVec 8).toNat ∧ (254 : BitVec 8).toNat ≤ 254 := by
  decide

theorem test_witness_Rnd32IsNearestTiesToEven :
    (0 : ℚ) ≤ 0 ∧ (0 : ℚ) ≤ 1 / 3 ∧ (1 / 3 : ℚ) ≤ 2 ^ 127 ∧ (2 ^ 127 : ℚ) ≤ 2 ^ 127 ∧
    (val 0x7F7FFFFF).isSome = true ∧ (val 0x00000000).isSome = true :=
  ⟨by norm_num, by norm_num, by norm_num, by norm_num, by decide, by decide⟩

/-- Each branch of the hue: grey, red, green and blue maximal, and black. -/
theorem test_witness_RgbToHsvFollowsTheHueBranches :
    (255 : Nat) ≤ 255 ∧ (255 = max 255 (max 0 1) ∧ 0 = min 255 (min 0 1)) ∧
    (255 = max 0 (max 255 255) ∧ 0 = min 0 (min 255 255)) ∧ (1 = max 0 (max 0 1) ∧ 0 = min 0 (min 0 1)) ∧
    (0 = max 0 (max 0 0) ∧ 0 = min 0 (min 0 0)) := by decide

theorem test_witness_HsvResultsStayInRange : (255 : Nat) ≤ 255 ∧ (0 : Nat) ≤ 255 ∧ (1 : Nat) ≤ 255 := by decide

theorem test_witness_SharedMaximumFixesTheHue : (255 : Nat) ≤ 255 ∧ 254 < 255 ∧ (1 : Nat) ≤ 255 ∧ 0 < 1 := by decide

/-- A component below 0, one above 255, and the ends of the range between: R94's clauses, with the tie 8.5 of R105. -/
theorem test_witness_ChannelClauses :
    rhe (255 * (-3 / 5)) < 0 ∧ 255 < rhe (255 * 2) ∧ rhe (255 * 0) = 0 ∧ rhe (255 * 1) = 255 ∧ rhe (255 * (1 / 30)) = 8 ∧
    clamp8 (-1) = 0 ∧ clamp8 256 = 255 ∧ clamp8 255 = 255 := by decide +kernel

/-- The fraction at both ends of its range. -/
theorem test_witness_HsvToRgbFollowsTheSectorTable :
    (0 : ℚ) ≤ 0 ∧ (0 : ℚ) < 1 ∧ (0 : ℚ) ≤ 254 / 255 ∧ (254 / 255 : ℚ) < 1 ∧
    ((1 / 2 : ℚ) = 1 * (1 - 1 / 2) ∧ (1 : ℚ) = 1 * (1 - 0 * (1 / 2)) ∧ (1 / 2 : ℚ) = 1 * (1 - (1 - 0) * (1 / 2))) := by
  norm_num

theorem test_witness_ExactRoundTripRestoresTheColour : (255 : Nat) ≤ 255 ∧ (0 : Nat) ≤ 255 := by decide

theorem test_witness_RegisterRoundTripRestoresRgb : ({ State.reset with RGB := 0x010203 } : State).ERR = false := by decide

theorem test_witness_WheelWrapsAtThePeriod :
    ran .wheel { State.reset with POS := 1 } (fun _ => true) = true ∧
    (361 : Word).toNat = ({ State.reset with POS := 1 } : State).POS.toNat + 1 * State.reset.PERIOD.toNat := by
  decide

/-- Every way a configuration is illegal and the largest legal one, at reset's capacity. -/
theorem test_witness_InitLatchesOnlyALegalConfiguration :
    State.reset.ERR = false ∧ (ready 8).CFGD = true ∧ (0x00100008#32).extractLsb' 20 12 ≠ 0 ∧
    5 < ((0x000C0008#32).extractLsb' 17 3).toNat ∧ (0x00020000#32).extractLsb' 0 16 = 0 ∧
    State.reset.npixMax < ((0x00000401#32).extractLsb' 0 16).toNat ∧
    (State.reset.CFGD = false ∧ (0x000B0400#32).extractLsb' 20 12 = 0 ∧ ((0x000B0400#32).extractLsb' 17 3).toNat ≤ 5 ∧
      (0x000B0400#32).extractLsb' 0 16 ≠ 0 ∧ ((0x000B0400#32).extractLsb' 0 16).toNat ≤ State.reset.npixMax) := by decide

theorem test_witness_Enc3ScalesToTheIntensity :
    (255 : Nat) ≤ 255 ∧ (3 = max 1 (max 2 3)) ∧ (3 : Nat) ≠ 0 ∧ (0 = max 0 (max 0 0)) ∧ (1 : ℚ) ≤ 1 ∧ (31 / 32 : ℚ) < 1 := by
  norm_num

theorem test_witness_Enc4IsTheSaturatedCeiling : (1 : Nat) ≤ 1 ∧ 1 ≤ 30 ∧ 1 ≤ 30 ∧ 30 ≤ 30 := by decide

theorem test_witness_EncodedPixelHasTheRawLayout :
    (0x00808080 : Word) = encodePixel 0xFFFFFF (1 / 2) .threeChannel ∧
    (0x10FFFFFF : Word) = encodePixel 0xFFFFFF (1 / 2) .fourChannelWithIntensity := by decide +kernel

theorem test_witness_EncWritesTheEncodedPixel :
    State.reset.ERR = false ∧ State.reset.CFGD = false ∧ (ready 8).ERR = false ∧ (ready 8).CFGD = true ∧
    val ({ ready 8 with INT := 0x7F800000 } : State).INT = none ∧ val (ready 8).INT = some 1 ∧
    (ready 8).CFG.getLsbD 16 = false ∧ (ready 0x000F0008).CFG.getLsbD 16 = true :=
  ⟨by decide, by decide, by decide, by decide, by decide, test_reset_intensity, by decide, by decide⟩

/-- The last index of the strip and the first outside it. -/
theorem test_witness_PutWritesOneSlot :
    (ready 0x000B0008).ERR = false ∧ Memory.wf (ready 0x000B0008).PB = true ∧ State.reset.CFGD = false ∧
    (ready 0x000B0008).CFGD = true ∧
    ((ready 0x000B0008).CFG.extractLsb' 0 16).toNat ≤ ({ ready 0x000B0008 with IDX := 8 } : State).IDX.toNat ∧
    ({ ready 0x000B0008 with IDX := 7 } : State).IDX.toNat < ((ready 0x000B0008).CFG.extractLsb' 0 16).toNat := by decide

theorem test_witness_PutFlWritesOneSlotAndFlushes :
    (ready 8).ERR = false ∧ Memory.wf (ready 8).PB = true ∧ State.reset.CFGD = false ∧ (ready 8).CFGD = true ∧
    countOf (ready 8).CFG ≤ ({ ready 8 with IDX := 8 } : State).IDX.toNat ∧
    ({ ready 8 with IDX := 7 } : State).IDX.toNat < countOf (ready 8).CFG ∧
    nextAnswer (ready 8) = .ok ∧ nextAnswer (ready 8 .fail) = .fail := by decide

theorem test_witness_FillWritesEverySlot :
    State.reset.ERR = false ∧ State.reset.CFGD = false ∧ (ready 8).ERR = false ∧ (ready 8).CFGD = true ∧
    nextAnswer (ready 8) = .ok ∧ nextAnswer (ready 8 .fail) = .fail := by decide

theorem test_witness_FlushPushesTheBuffer :
    State.reset.ERR = false ∧ State.reset.CFGD = false ∧ (ready 8).ERR = false ∧ (ready 8).CFGD = true ∧
    nextAnswer (ready 8) = .ok ∧ nextAnswer (ready 8 .fail) = .fail := by decide

theorem test_witness_SetEncodesStoresAndFlushes :
    (ready 8).ERR = false ∧ Memory.wf (ready 8).PB = true ∧ State.reset.CFGD = false ∧ (ready 8).CFGD = true ∧
    val ({ ready 8 with INT := 0xFFC00000 } : State).INT = none ∧ val (ready 8).INT = some 1 ∧
    (∃ raw, raw = encodePixel (ready 8).RGB 1 (protoOf (ready 8).CFG)) ∧
    countOf (ready 8).CFG ≤ ({ ready 8 with IDX := 8 } : State).IDX.toNat ∧
    ({ ready 8 with IDX := 7 } : State).IDX.toNat < countOf (ready 8).CFG ∧
    nextAnswer (ready 8) = .ok ∧ nextAnswer (ready 8 .fail) = .fail :=
  ⟨by decide, by decide, by decide, by decide, by decide, test_reset_intensity, ⟨_, rfl⟩, by decide, by decide,
    by decide, by decide⟩

theorem test_witness_SetAllEncodesStoresAndFlushes :
    (ready 8).ERR = false ∧ State.reset.CFGD = false ∧ (ready 8).CFGD = true ∧
    val ({ ready 8 with INT := 0xFFC00000 } : State).INT = none ∧ val (ready 8).INT = some 1 ∧
    (∃ raw, raw = encodePixel (ready 8).RGB 1 (protoOf (ready 8).CFG)) ∧
    nextAnswer (ready 8) = .ok ∧ nextAnswer (ready 8 .fail) = .fail :=
  ⟨by decide, by decide, by decide, by decide, test_reset_intensity, ⟨_, rfl⟩, by decide, by decide⟩

theorem test_witness_SetIsEncThenPutFl :
    (ready 8).ERR = false ∧ (ready 8).CFGD = true ∧ ran .enc (ready 8) (fun t => !t.ERR) = true ∧
    ran .enc { ready 8 with INT := 0x7FC00000 } (fun t => t.ERR) = true := by decide

theorem test_witness_ClearDarkensEverySlot :
    State.reset.ERR = false ∧ State.reset.CFGD = false ∧ (ready 8).ERR = false ∧ (ready 8).CFGD = true ∧
    nextAnswer (ready 8) = .ok ∧ nextAnswer (ready 8 .fail) = .fail := by decide

theorem test_witness_SecondClearOnlyFlushesAgain :
    ran .clear { ready 8 with sinkAnswers := [.ok, .ok] } (fun t => nextAnswer t == .ok) = true ∧
    nextAnswer { ready 8 with sinkAnswers := [.ok, .ok] } = .ok ∧ (ready 8).ERR = false ∧ (ready 8).CFGD = true := by
  decide

/-- A strip of one pixel, and a frame on an odd traversal of a longer one. -/
theorem test_witness_TidxTravelsAndBounces :
    State.reset.ERR = false ∧ State.reset.CFGD = false ∧ (ready 1).CFGD = true ∧ 1 = countOf (ready 1).CFG ∧
    ({ ready 1 with FRAME := 3 } : State).FRAME.toNat = 3 * 1 + 0 ∧ 0 < 1 ∧
    4 = countOf (ready 4).CFG ∧ ({ ready 4 with FRAME := 7 } : State).FRAME.toNat = 1 * 4 + 3 ∧ 3 < 4 := by decide

theorem test_witness_SelPicksTheLitOrTheDarkPixel :
    State.reset.ERR = false ∧ State.reset.CFGD = false ∧ (ready 8).CFGD = true ∧
    val ({ ready 8 with INT := 0x7F800000 } : State).INT = none ∧ val (ready 8).INT = some 1 ∧
    (ready 8).IDX = (ready 8).TGT ∧ ({ ready 8 with TGT := 1 } : State).IDX ≠ ({ ready 8 with TGT := 1 } : State).TGT :=
  ⟨by decide, by decide, by decide, by decide, test_reset_intensity, by decide, by decide⟩

theorem test_witness_FadeWritesExactSteps :
    State.reset.ERR = false ∧ 0 = State.reset.FRAME.toNat % 32 ∧
    31 = ({ State.reset with FRAME := 0xFFFFFFFF } : State).FRAME.toNat % 32 := by decide

theorem test_witness_WposPlacesThePixelOnTheWheel :
    State.reset.ERR = false ∧ State.reset.CFGD = false ∧ (ready 8).CFGD = true ∧
    countOf (ready 8).CFG ≤ ({ ready 8 with IDX := 8 } : State).IDX.toNat ∧
    ({ ready 8 with IDX := 7 } : State).IDX.toNat < countOf (ready 8).CFG := by decide

theorem test_witness_ExactlyOnePixelDiffers :
    (ready 8).ERR = false ∧ (ready 8).CFGD = true ∧ val (ready 8).INT = some 1 ∧
    ({ ready 8 with TGT := 7 } : State).TGT.toNat < countOf (ready 8).CFG ∧ 7 < countOf (ready 8).CFG ∧
    0 < countOf (ready 8).CFG :=
  ⟨by decide, by decide, test_reset_intensity, by decide, by decide, by decide⟩

/-- A slot of either protocol. -/
theorem test_witness_FlushStandsForTheSinkCalls :
    ([0x1F112233] : List Word)[0]? = some 0x1F112233 ∧
    (⟨[0x1F112233], .threeChannel, .ok⟩ : FlushEvent).proto = .threeChannel ∧
    (⟨[0x1F112233], .fourChannelWithIntensity, .ok⟩ : FlushEvent).proto = .fourChannelWithIntensity := by decide

/-- A lit word that is not 0, and one that is (black at 1.0 under ThreeChannel). -/
theorem test_witness_LitWords :
    encodePixel 0x000001 1 (protoOf (ready 8).CFG) ≠ 0 ∧ encodePixel 0x000000 1 (protoOf (ready 8).CFG) = 0 := by
  decide +kernel

theorem test_witness_ReadsAnswerTheRegister :
    ({ State.reset with pending := [.bus (.read 4 0x40)] } : State).pending = .bus (.read 4 0x40) :: [] ∧
    (0x40, State.reset.RAW) ∈
      ([(0x00, 0), (0x04, (if State.reset.ERR then 2 else 0) + (if State.reset.CFGD then 1 else 0)),
        (0x08, State.reset.CAUSE.setWidth 32), (0x0C, State.reset.FINFO), (0x10, State.reset.CFG),
        (0x14, State.reset.CFGIN), (0x18, State.reset.RGB.setWidth 32), (0x1C, State.reset.H), (0x20, State.reset.S),
        (0x24, State.reset.V), (0x28, State.reset.INT), (0x2C, State.reset.POS), (0x30, State.reset.PERIOD),
        (0x34, State.reset.IDX), (0x38, State.reset.FRAME), (0x3C, State.reset.TGT), (0x40, State.reset.RAW)] :
        List (BitVec 8 × Word)) := by decide

/-- The states the statement's list names, at its first and last offsets and at `RGB`. -/
theorem test_witness_WritesStoreTheRegister :
    let s : State := { State.reset with pending := [.bus (.write 4 0x40 0xFFFFFFFF)] }
    let v : Word := 0xFFFFFFFF
    let writes : List (BitVec 8 × State) :=
      [(0x14, { s with CFGIN := v }), (0x18, { s with RGB := v.extractLsb' 0 24 }), (0x1C, { s with H := v }),
        (0x20, { s with S := v }), (0x24, { s with V := v }), (0x28, { s with INT := v }), (0x2C, { s with POS := v }),
        (0x30, { s with PERIOD := v }), (0x34, { s with IDX := v }), (0x38, { s with FRAME := v }),
        (0x3C, { s with TGT := v }), (0x40, { s with RAW := v })]
    s.pending = .bus (.write 4 0x40 v) :: [] ∧ (0x40, { s with RAW := v }) ∈ writes := by decide

/-- The first unmapped offset, the last read-only register, a 2-byte access and a misaligned one. -/
theorem test_witness_IllegalAccessesAnswerError :
    0x44 ≤ (0x44 : BitVec 8).toNat ∧ (0x10 : BitVec 8) ∈ ([0x04, 0x08, 0x0C, 0x10] : List (BitVec 8)) ∧ 2 ≠ 4 ∧
    (0x19 : BitVec 8).toNat % 4 ≠ 0 ∧
    ({ State.reset with pending := [.bus (.read 4 0x44)] } : State).pending = .bus (.read 4 0x44) :: [] ∧
    ({ State.reset with pending := [.bus (.write 4 0x10 1)] } : State).pending = .bus (.write 4 0x10 1) :: [] := by
  decide

theorem test_witness_HostCannotReadTheBuffer :
    stepped { ready 8 with pending := [.bus (.write 4 0x00 0x32)] } (fun t => t.events.length == 1) = true := by
  decide

theorem test_witness_PlatformResetRestoresTheRegisters :
    ({ ready 8 with pending := [.reset] } : State).pending = .reset :: [] := by decide

theorem test_witness_EveryHostInputIsServed :
    State.reset.pending = [] ∧
    ({ State.reset with pending := [.secondMaster (.read 4 0)] } : State).pending = .secondMaster (.read 4 0) :: [] ∧
    refusedInput { State.reset with pending := [.reset] } = false := by decide

/-- A configured state with a slot written, which meets the invariant, and a step from it. -/
theorem test_witness_EveryStepKeepsTheInvariant :
    StateInv { ready 8 with PB := [(7, 1)], pending := [.bus (.write 4 0x00 0x32)] } ∧
    stepped { ready 8 with PB := [(7, 1)], pending := [.bus (.write 4 0x00 0x32)] } (fun _ => true) = true :=
  ⟨⟨by decide, by decide, by decide, by decide, by decide, by decide, by decide, by intro e h; cases h⟩, by decide⟩

theorem test_witness_ConfigurationIsImmutable :
    (ready 8).CFGD = true ∧ (ready 8).pending = [] ∧ stepped (ready 8) (fun _ => true) = true ∧
    stepped { ready 8 with pending := [.bus (.write 4 0x00 0x01)] } (fun t => t.ERR) = true := by decide

theorem test_witness_FirstFaultIsKept :
    stepped { ready 8 with ERR := true, CAUSE := 2, FINFO := 9, pending := [.bus (.write 4 0x00 0x34)] }
      (fun t => faulted 2 9 t) = true := by decide

/-- A step with a flush and one without. -/
theorem test_witness_StripChangesOnlyByAFlush :
    stepped { ready 8 with pending := [.bus (.write 4 0x00 0x32)] } (fun t => t.events.length == 1) = true ∧
    stepped { ready 8 with pending := [.bus (.write 4 0x00 0x31)] } (fun t => t.events.length == 0) = true := by
  decide

/-- A command that records each cause of R202, and one whose row names none while a fault is recorded. -/
theorem test_witness_RecordedCauses :
    ran .init State.reset (fun t => t.ERR && t.CAUSE == 1) = true ∧
    ran .wpos { ready 8 with IDX := 8 } (fun t => t.ERR && t.CAUSE == 2) = true ∧
    ran .clear (ready 8 .fail) (fun t => t.ERR && t.CAUSE == 4) = true ∧
    ran .hsv2rgb { State.reset with H := 0x7FC00000 } (fun t => t.ERR && t.CAUSE == 6) = true ∧
    ran .clear State.reset (fun t => t.ERR && t.CAUSE == 7) = true ∧
    ran .fade { State.reset with ERR := true, CAUSE := 1, FINFO := 9 } (faulted 1 9) = true := by decide

theorem test_witness_CommandsWriteOnlyTheirRow :
    Memory.wf (ready 8).PB = true ∧ ran .put { ready 8 with RAW := 1, IDX := 7 } (fun t => readSlot t.PB 7 == 1) = true := by
  decide


end Sys2Proof.Tests
end

/-! SUPPORT. What a command can do to the state, said once for all commands (`exec_effect`) and for a step
(`step_effect`); the invariants of the state are read off from it. -/

namespace Sys2Proof.Machine

/-- What stores into the slots `0 .. n - 1` can make of the memory `m` (R38, R54). -/
inductive StripStores (n : Nat) (m : Memory) : Memory → Prop
  | none : StripStores n m m
  | slot {m' : Memory} {i : Nat} (v : Word) (hi : i < n) (h : StripStores n m m') :
      StripStores n m (writeSlot m' i v)
  | all {m' : Memory} (v : Word) (h : StripStores n m m') : StripStores n m (fillSlots m' n v)

/-- Stores into the strip keep the canonical form. -/
theorem StripStores.wf {n : Nat} {m m' : Memory} (h : StripStores n m m') (hm : Memory.wf m = true) :
    Memory.wf m' = true := by
  induction h with
  | none => exact hm
  | slot v hi _ ih => exact wf_writeSlot ih _ v
  | all v _ ih => exact wf_fillSlots ih n v

/-- Stores into the strip list no slot outside it. -/
theorem StripStores.inside {n : Nat} {m m' : Memory} (h : StripStores n m m') (hm : ∀ c ∈ m, c.1 < n) :
    ∀ c ∈ m', c.1 < n := by
  induction h with
  | none => exact hm
  | slot v hi _ ih =>
    intro c hc
    rcases mem_writeSlot hc with rfl | hc
    · exact hi
    · exact ih c hc
  | all v _ ih =>
    intro c hc
    rcases mem_fillSlots hc with ⟨hlt, -⟩ | ⟨hc, -⟩
    · exact hlt
    · exact ih c hc

/-- From `s` to `t` only the host-writable registers, the run's own inputs and answer, and slots of the strip may have
changed: the configuration, the recorded fault, the capacity and the sink's side are as they were. -/
structure Prepares (s t : State) : Prop where
  cfg : t.CFG = s.CFG
  cfgd : t.CFGD = s.CFGD
  err : t.ERR = s.ERR
  cause : t.CAUSE = s.CAUSE
  finfo : t.FINFO = s.FINFO
  npixMax : t.npixMax = s.npixMax
  disp : t.DISP = s.DISP
  events : t.events = s.events
  sinkAnswers : t.sinkAnswers = s.sinkAnswers
  stores : StripStores (countOf s.CFG) s.PB t.PB

theorem Prepares.refl (s : State) : Prepares s s := ⟨rfl, rfl, rfl, rfl, rfl, rfl, rfl, rfl, rfl, .none⟩

/-- Writing host-writable registers, the coming inputs or the bus answer prepares. -/
theorem Prepares.of_registers {s t : State} {rest : List Input}
    (h : t = { s with
      CFGIN := t.CFGIN, RGB := t.RGB, H := t.H, S := t.S, V := t.V, INT := t.INT, POS := t.POS, PERIOD := t.PERIOD
      IDX := t.IDX, FRAME := t.FRAME, TGT := t.TGT, RAW := t.RAW, answer := t.answer, pending := rest }) :
    Prepares s t := by
  rw [h]
  exact { Prepares.refl s with }

theorem Prepares.setRaw {s u : State} (h : Prepares s u) (w : Word) : Prepares s { u with RAW := w } :=
  { h with }

theorem Prepares.fillStrip {s u : State} (h : Prepares s u) (v : Word) :
    Prepares s { u with PB := fillSlots u.PB (countOf u.CFG) v } :=
  { h with stores := by rw [h.cfg]; exact .all v h.stores }

theorem Prepares.storeSlot {s u : State} (h : Prepares s u) {i : Nat} (hi : i < countOf u.CFG) (v : Word) :
    Prepares s { u with PB := writeSlot u.PB i v } :=
  { h with stores := .slot v (h.cfg ▸ hi) h.stores }

/-- Everything a command can do (R72, R74, R171, R120, R130, R203). -/
inductive CommandEffect (s : State) : State → Prop
  /-- a recorded fault shuts it out -/
  | ignored (he : s.ERR = true) : CommandEffect s s
  /-- `CLRERR` -/
  | acknowledged : CommandEffect s (acknowledge s)
  /-- a successful `INIT` -/
  | latched (he : s.ERR = false) (hc : s.CFGD = false) (hl : legalConfig s.npixMax s.CFGIN = true) :
      CommandEffect s { s with CFG := s.CFGIN, PB := fillSlots s.PB (countOf s.CFGIN) 0x00000000, CFGD := true }
  /-- results and slots written, nothing else -/
  | quiet {u : State} (he : s.ERR = false) (hu : Prepares s u) : CommandEffect s u
  /-- a fault of the CMU, possibly after a register was written -/
  | faulted {u : State} {c : Cause} (he : s.ERR = false) (hu : Prepares s u) (hc : c ≠ .invalidColorFormat)
      (info : Word) : CommandEffect s (raiseFault c info u)
  /-- one flush at the end -/
  | flushed {u : State} (he : s.ERR = false) (hc : s.CFGD = true) (hu : Prepares s u) : CommandEffect s (doFlush u)

section Operations

variable {s u t : State} (hu : Prepares s u) (he : s.ERR = false)
include hu he

theorem withFinite_effect (r : Reg) (w : Word) {k : ℚ → State} (hk : ∀ x, CommandEffect s (k x)) :
    CommandEffect s (withFinite r w u k) := by
  rcases withFinite_cases r w u k with ⟨-, h⟩ | ⟨x, -, h⟩ <;> rw [h]
  · exact .faulted he hu (by decide) _
  · exact hk x

theorem encodeRaw_effect {k : State → State} (hk : ∀ v, Prepares s v → CommandEffect s (k v)) :
    CommandEffect s (encodeRaw u k) :=
  withFinite_effect hu he .INT u.INT fun _ => hk _ (hu.setRaw _)

theorem selectRaw_effect (lit : Bool) : CommandEffect s (selectRaw lit u) :=
  withFinite_effect hu he .INT u.INT fun _ => .quiet he (hu.setRaw _)

theorem putRaw_effect {k : State → State} (hk : ∀ v, Prepares s v → CommandEffect s (k v)) :
    CommandEffect s (putRaw u k) := by
  rcases putRaw_cases u k with ⟨-, h⟩ | ⟨hi, h⟩ <;> rw [h]
  · exact .faulted he hu (by decide) _
  · exact hk _ (hu.storeSlot hi _)

theorem wheelPosition_effect (f : Nat → Nat → Nat → Nat) : CommandEffect s (wheelPosition f u) := by
  unfold wheelPosition
  dsimp only
  split
  · exact .faulted he hu (by decide) _
  · exact .quiet he { hu with }

end Operations

/-- Dispatch adds to a command's own rule only the two gates (R72). -/
theorem command_effect {i : Instr} {s t : State} {body : State → State} (hx : exec i s = command i s body)
    (h : exec i s = .next t)
    (hb : s.ERR = false → (needsCfgd i = true → s.CFGD = true) → CommandEffect s (body s)) : CommandEffect s t := by
  rcases command_cases (hx ▸ h) with ⟨he, rfl⟩ | ⟨he, -, -, rfl⟩ | ⟨he, hc, rfl⟩
  · exact .ignored he
  · exact .faulted he (.refl s) (by decide) _
  · exact hb he hc

/-- Every command has one of the effects listed. -/
theorem exec_effect {i : Instr} {s t : State} (h : exec i s = .next t) : CommandEffect s t := by
  have hs : Prepares s s := .refl s
  cases i with
  | nop => exact command_effect (exec_nop s) h fun he _ => .quiet he hs
  | init =>
    refine command_effect (exec_init s) h fun he _ => ?_
    split
    · exact .faulted he hs (by decide) _
    · rename_i hl
      simp only [Bool.or_eq_true, Bool.not_eq_true', not_or, Bool.not_eq_true, Bool.not_eq_false] at hl
      exact .latched he hl.1 hl.2
  | clrerr => cases h; exact .acknowledged
  | rgb2hsv => exact command_effect (exec_rgb2hsv s) h fun he _ => .quiet he { hs with }
  | hsv2rgb =>
    exact command_effect (exec_hsv2rgb s) h fun he _ =>
      withFinite_effect hs he .H s.H fun _ => withFinite_effect hs he .S s.S fun _ =>
        withFinite_effect hs he .V s.V fun _ => .quiet he { hs with }
  | wheel =>
    refine command_effect (exec_wheel s) h fun he _ => withFinite_effect hs he .INT s.INT fun _ => ?_
    split
    · exact .faulted he hs (by decide) _
    · exact .quiet he { hs with }
  | enc => exact command_effect (exec_enc s) h fun he _ => encodeRaw_effect hs he fun _ hv => .quiet he hv
  | sel => exact command_effect (exec_sel s) h fun he _ => selectRaw_effect hs he _
  | selInv => exact command_effect (exec_selInv s) h fun he _ => selectRaw_effect hs he _
  | tidx => exact command_effect (exec_tidx s) h fun he _ => .quiet he { hs with }
  | tidxBnc => exact command_effect (exec_tidxBnc s) h fun he _ => .quiet he { hs with }
  | fade => exact command_effect (exec_fade s) h fun he _ => .quiet he { hs with }
  | fadeOut => exact command_effect (exec_fadeOut s) h fun he _ => .quiet he { hs with }
  | wpos => exact command_effect (exec_wpos s) h fun he _ => wheelPosition_effect hs he _
  | wposRb => exact command_effect (exec_wposRb s) h fun he _ => wheelPosition_effect hs he _
  | put => exact command_effect (exec_put s) h fun he _ => putRaw_effect hs he fun _ hv => .quiet he hv
  | putFl =>
    exact command_effect (exec_putFl s) h fun he hc => putRaw_effect hs he fun _ hv => .flushed he (hc rfl) hv
  | fill => exact command_effect (exec_fill s) h fun he _ => .quiet he (hs.fillStrip _)
  | fillFl => exact command_effect (exec_fillFl s) h fun he hc => .flushed he (hc rfl) (hs.fillStrip _)
  | flush => exact command_effect (exec_flush s) h fun he hc => .flushed he (hc rfl) hs
  | set =>
    exact command_effect (exec_set s) h fun he hc => encodeRaw_effect hs he fun _ hv =>
      putRaw_effect hv he fun _ hw => .flushed he (hc rfl) hw
  | setAll =>
    exact command_effect (exec_setAll s) h fun he hc => encodeRaw_effect hs he fun _ hv =>
      .flushed he (hc rfl) (hv.fillStrip _)
  | clear =>
    exact command_effect (exec_clear s) h fun he hc => .flushed he (hc rfl) ((hs.setRaw darkPixel).fillStrip _)

/-- Everything a word written to `CMD` can do: an illegal one faults as a command does (R75). -/
theorem runWord_effect {w : Word} {s t : State} (h : runWord w s = .next t) : CommandEffect s t := by
  rcases runWord_cases h with ⟨i, -, hx⟩ | ⟨he, rfl⟩ | ⟨he, -, rfl⟩
  · exact exec_effect hx
  · exact .ignored he
  · exact .faulted he (.refl s) (by decide) w

/-- A step that goes on is a reset, writes host-writable registers alone, or has the effect of a command on the state in
which the write to `CMD` is consumed and answered. -/
theorem step_effect {s t : State} (h : step s = .next t) :
    (∃ rest, s.pending = .reset :: rest ∧ t = platformReset { s with pending := rest }) ∨
    Prepares s t ∨
    (∃ rest, CommandEffect { s with pending := rest, answer := some (.write .okay) } t) := by
  rcases step_cases h with ⟨-, rfl⟩ | hreset | ⟨-, _, -, ht⟩ | ⟨w, rest, -, hw⟩
  · exact .inr (.inl (.refl t))
  · exact .inl hreset
  · exact .inr (.inl (.of_registers ht))
  · exact .inr (.inr ⟨rest, runWord_effect hw⟩)

/-! The invariant. -/

theorem causeCode_mem_raisedCodes {c : Cause} (h : c ≠ .invalidColorFormat) : causeCode c ∈ raisedCodes := by
  cases c with
  | invalidColorFormat => exact absurd rfl h
  | _ => decide

theorem stateInv_of_prepares {s t : State} (hs : StateInv s) (h : Prepares s t) : StateInv t where
  memoryWf := h.stores.wf hs.memoryWf
  slotsInside := by rw [h.cfg]; exact h.stores.inside hs.slotsInside
  noFault := by rw [h.err, h.cause, h.finfo]; exact hs.noFault
  faultCode := by rw [h.err, h.cause]; exact hs.faultCode
  unconfigured := by rw [h.cfgd, h.cfg]; exact hs.unconfigured
  configured := by rw [h.cfgd, h.npixMax, h.cfg]; exact hs.configured
  capacity := by rw [h.npixMax]; exact hs.capacity
  displaysLastFlush := by rw [h.events, h.disp]; exact hs.displaysLastFlush

theorem stateInv_raiseFault {s : State} (hs : StateInv s) {c : Cause} (hc : c ≠ .invalidColorFormat) (info : Word) :
    StateInv (raiseFault c info s) :=
  { hs with
    noFault := nofun
    faultCode := fun _ => causeCode_mem_raisedCodes hc }

theorem stateInv_acknowledge {s : State} (hs : StateInv s) : StateInv (acknowledge s) :=
  { hs with
    noFault := fun _ => ⟨rfl, rfl⟩
    faultCode := nofun }

/-- After a flush answered `ok` the strip shows the event just recorded (R42). -/
theorem stateInv_emitFlush {s : State} (hs : StateInv s) : StateInv (emitFlush s) :=
  { hs with
    displaysLastFlush := by
      intro e hlast hok
      simp only [emitFlush_events, List.getLast?_concat, Option.some.injEq] at hlast
      subst hlast
      simp only at hok
      simp only [emitFlush_DISP, hok, displayed] }

theorem stateInv_doFlush {s : State} (hs : StateInv s) : StateInv (doFlush s) := by
  rcases doFlush_cases s with ⟨-, h⟩ | ⟨-, h⟩ <;> rw [h]
  · exact stateInv_emitFlush hs
  · exact stateInv_raiseFault (stateInv_emitFlush hs) (by decide) 0

/-- Before the first `INIT` no slot is listed: the strip then has no slot to write (R33, R38). -/
theorem no_slot_listed {s : State} (hs : StateInv s) (hc : s.CFGD = false) : ∀ c, c ∉ s.PB := by
  intro c hmem
  have hlt := hs.slotsInside c hmem
  rw [hs.unconfigured hc] at hlt
  exact Nat.not_lt_zero _ hlt

theorem stateInv_latch {s : State} (hs : StateInv s) (hc : s.CFGD = false)
    (hl : legalConfig s.npixMax s.CFGIN = true) :
    StateInv { s with CFG := s.CFGIN, PB := fillSlots s.PB (countOf s.CFGIN) 0x00000000, CFGD := true } :=
  { hs with
    memoryWf := wf_fillSlots hs.memoryWf _ _
    slotsInside := by
      intro c hmem
      rcases mem_fillSlots hmem with ⟨hlt, -⟩ | ⟨hold, -⟩
      · exact hlt
      · exact absurd hold (no_slot_listed hs hc c)
    unconfigured := nofun
    configured := fun _ => hl }

/-- The reset registers meet the invariant whatever the sink's side is; that side is kept (R231). -/
theorem stateInv_platformReset {s : State} (hs : StateInv s) : StateInv (platformReset s) :=
  { hs with
    memoryWf := rfl
    slotsInside := nofun
    noFault := fun _ => ⟨rfl, rfl⟩
    faultCode := nofun
    unconfigured := fun _ => rfl
    configured := nofun }

theorem CommandEffect.stateInv {s t : State} (h : CommandEffect s t) (hs : StateInv s) : StateInv t := by
  cases h with
  | ignored _ => exact hs
  | acknowledged => exact stateInv_acknowledge hs
  | latched _ hc hl => exact stateInv_latch hs hc hl
  | quiet _ hu => exact stateInv_of_prepares hs hu
  | faulted _ hu hc info => exact stateInv_raiseFault (stateInv_of_prepares hs hu) hc info
  | flushed _ _ hu => exact stateInv_doFlush (stateInv_of_prepares hs hu)

/-- Settles O53: a reset, register writes and every effect of a command keep the invariant. -/
theorem everyStepKeepsTheInvariant : Obligations.EveryStepKeepsTheInvariant := by
  intro s t hs h
  rcases step_effect h with ⟨rest, -, rfl⟩ | hp | ⟨rest, hcmd⟩
  · exact stateInv_platformReset { hs with }
  · exact stateInv_of_prepares hs hp
  · exact hcmd.stateInv { hs with }

/-- Settles O52, clause by clause; the history is empty, so nothing is said of the strip. -/
theorem resetMeetsTheInvariant : Obligations.ResetMeetsTheInvariant where
  memoryWf := rfl
  slotsInside := nofun
  noFault := fun _ => ⟨rfl, rfl⟩
  faultCode := nofun
  unconfigured := fun _ => rfl
  configured := nofun
  capacity := by decide
  displaysLastFlush := nofun

/-! The configuration and the strip. -/

@[simp] theorem doFlush_CFG (s : State) : (doFlush s).CFG = s.CFG := by
  rcases doFlush_cases s with ⟨-, h⟩ | ⟨-, h⟩ <;> simp [h]

@[simp] theorem doFlush_CFGD (s : State) : (doFlush s).CFGD = s.CFGD := by
  rcases doFlush_cases s with ⟨-, h⟩ | ⟨-, h⟩ <;> simp [h]

/-- Only `INIT` without a configuration writes one (R33). -/
theorem CommandEffect.keeps_config {s t : State} (h : CommandEffect s t) (hc : s.CFGD = true) :
    t.CFGD = true ∧ t.CFG = s.CFG := by
  cases h with
  | ignored _ | acknowledged => exact ⟨hc, rfl⟩
  | latched _ hn _ => exact absurd (hn.symm.trans hc) Bool.false_ne_true
  | quiet _ hu | faulted _ hu _ _ => exact ⟨hu.cfgd.trans hc, hu.cfg⟩
  | flushed _ _ hu =>
    rw [doFlush_CFGD, doFlush_CFG]
    exact ⟨hu.cfgd.trans hc, hu.cfg⟩

/-- Settles O54: of the three kinds of step only a reset touches a latched configuration. -/
theorem configurationIsImmutable : Obligations.ConfigurationIsImmutable := by
  intro s t hc hnoReset h
  rcases step_effect h with ⟨rest, hp, -⟩ | hp | ⟨rest, hcmd⟩
  · exact absurd hp (hnoReset rest)
  · exact ⟨hp.cfgd.trans hc, hp.cfg⟩
  · exact hcmd.keeps_config hc

@[simp] theorem displayed_length (n : Nat) (shot : List Word) (a : SinkAnswer) :
    (displayed n shot a).length = shot.length := by
  cases a <;> simp [displayed]

/-- A flush at the end of a command is one flush since its start, of the buffer the command leaves (R61, R130). -/
theorem Prepares.flushed_emitFlush {s u : State} (hu : Prepares s u) : Flushed s (emitFlush u) (nextAnswer u) := by
  refine ⟨?_, ?_, ?_, ?_⟩
  · rw [emitFlush_events, hu.events]; rfl
  · rw [emitFlush_sinkAnswers, hu.sinkAnswers]
  · intro hok
    rw [emitFlush_DISP, hok]; rfl
  · intro _
    simp

/-- A command leaves the sink's side alone or ends in one flush, which faults exactly when the sink answers `fail`. -/
theorem CommandEffect.strip {s t : State} (h : CommandEffect s t) :
    (t.events = s.events ∧ t.DISP = s.DISP) ∨
    (∃ a, Flushed s t a ∧ s.ERR = false ∧ s.CFGD = true ∧ (a = .ok → t.ERR = false) ∧
      (a = .fail → t.ERR = true ∧ t.CAUSE = 4 ∧ t.FINFO = 0)) := by
  cases h with
  | ignored _ | acknowledged | latched _ _ _ => exact .inl ⟨rfl, rfl⟩
  | quiet _ hu | faulted _ hu _ _ => exact .inl ⟨hu.events, hu.disp⟩
  | @flushed u he hc hu =>
    have hf := hu.flushed_emitFlush
    rcases doFlush_cases u with ⟨ha, h⟩ | ⟨ha, h⟩ <;> rw [ha] at hf <;> rw [h]
    · exact .inr ⟨.ok, hf, he, hc, fun _ => hu.err.trans he, nofun⟩
    · exact .inr ⟨.fail, hf, he, hc, nofun, fun _ => ⟨rfl, rfl, rfl⟩⟩

/-- Settles O56: a reset and register writes leave the sink's side, and a command flushes at most once, at its end. -/
theorem stripChangesOnlyByAFlush : Obligations.StripChangesOnlyByAFlush := by
  intro s t h
  rcases step_effect h with ⟨rest, -, rfl⟩ | hp | ⟨rest, hcmd⟩
  · exact .inl ⟨rfl, rfl⟩
  · exact .inl ⟨hp.events, hp.disp⟩
  · exact hcmd.strip

/-! Dispatch of a written word, and the reset values. -/

/-- A four-byte write to offset 0x00 is answered `OKAY` and runs its word (R58, R72). -/
theorem step_write_CMD {s : State} {w : Word} {rest : List Input} (hp : s.pending = .bus (.write 4 0x00 w) :: rest) :
    step s = runWord w { s with pending := rest, answer := some (.write .okay) } := by
  unfold step
  rw [hp]
  rfl

/-- A legal word runs its command (R72 step 4). -/
theorem runWord_of_decode {w : Word} {i : Instr} (h : decode w = .ok i) (s : State) : runWord w s = exec i s := by
  simp [runWord, h]

/-- Settles O4: the write reaches `CMD`, and dispatch picks the meaning by the decoder. -/
theorem stepRunsTheDecodedCommand : Obligations.StepRunsTheDecodedCommand := by
  intro s w i rest hp hd
  rw [step_write_CMD hp, runWord_of_decode hd]

/-- Settles O49, one register after the other, then `STATUS`. -/
theorem resetValuesAreTheSpecs : Obligations.ResetValuesAreTheSpecs :=
  ⟨rfl, rfl, rfl, rfl, rfl, rfl, rfl, rfl, rfl, rfl, rfl, rfl, rfl, rfl, rfl, rfl, rfl, rfl⟩

end Sys2Proof.Machine

/-! Bus transactions, register by register (R51, R56 to R58). -/

namespace Sys2Proof.Machine

/-- The map is one to one: an offset reaches a register exactly when it is that register's (R51). -/
theorem registerAt_eq_some {off : BitVec 8} {r : Reg} : registerAt off = some r ↔ offsetOf r = off := by
  constructor
  · intro h
    simpa using List.find?_some h
  · rintro rfl
    cases r <;> rfl

/-- Every register has an aligned offset below 0x44 (R51). -/
theorem offsetOf_aligned_lt (r : Reg) : (offsetOf r).toNat % 4 = 0 ∧ (offsetOf r).toNat < 0x44 := by
  cases r <;> decide

theorem registerAt_unmapped {off : BitVec 8} (h : 0x44 ≤ off.toNat) : registerAt off = none := by
  rw [Option.eq_none_iff_forall_ne_some]
  intro r hr
  have hlt := (offsetOf_aligned_lt r).2
  rw [registerAt_eq_some.1 hr] at hlt
  omega

@[simp] theorem target_read_offsetOf (r : Reg) : target (.read 4 (offsetOf r)) = some r := by
  cases r <;> rfl

@[simp] theorem target_write_offsetOf (r : Reg) (v : Word) : target (.write 4 (offsetOf r) v) = some r := by
  cases r <;> rfl

/-- An access of another width, a misaligned or an unmapped one reaches no register (R56, R58). -/
theorem target_read_illegal {width : Nat} {off : BitVec 8}
    (h : width ≠ 4 ∨ off.toNat % 4 ≠ 0 ∨ 0x44 ≤ off.toNat) : target (.read width off) = none := by
  rcases h with h | h | h
  · simp [target, Transaction.wellFormed, Transaction.widthLegal, h]
  · simp [target, Transaction.wellFormed, Transaction.aligned, h]
  · simp [target, registerAt_unmapped h]

theorem target_write_illegal {width : Nat} {off : BitVec 8} (v : Word)
    (h : width ≠ 4 ∨ off.toNat % 4 ≠ 0 ∨ 0x44 ≤ off.toNat) : target (.write width off v) = none :=
  target_read_illegal h

/-- The step carries the host's transaction to its end on the state without it (R20). -/
theorem step_bus {s : State} {tr : Transaction} {rest : List Input} (hp : s.pending = .bus tr :: rest) :
    step s = serve tr { s with pending := rest } := by
  simp [step, hp, receive]

theorem step_read_register {s : State} {r : Reg} {rest : List Input}
    (hp : s.pending = .bus (.read 4 (offsetOf r)) :: rest) :
    step s = .next { s with pending := rest, answer := some (.read .okay (readRegister s r)) } := by
  have hr : readRegister { s with pending := rest } r = readRegister s r := by cases r <;> rfl
  simp [step_bus hp, serve, reply, hr]

theorem step_write_register {s : State} {r : Reg} {v : Word} {rest : List Input}
    (hp : s.pending = .bus (.write 4 (offsetOf r) v) :: rest) :
    step s = writeRegister r v { s with pending := rest } := by
  simp [step_bus hp, serve]

theorem step_read_error {s : State} {width : Nat} {off : BitVec 8} {rest : List Input}
    (hp : s.pending = .bus (.read width off) :: rest) (ht : target (.read width off) = none) :
    step s = .next { s with pending := rest, answer := some (.read .error 0) } := by
  simp [step_bus hp, serve, ht, reply]

theorem step_write_error {s : State} {width : Nat} {off : BitVec 8} {v : Word} {rest : List Input}
    (hp : s.pending = .bus (.write width off v) :: rest) (ht : target (.write width off v) = none) :
    step s = .next { s with pending := rest, answer := some (.write .error) } := by
  simp [step_bus hp, serve, ht, reply]

/-- `STATUS` is the sum of its two bits (R34). -/
theorem statusWord_eq_add (s : State) : statusWord s = (if s.ERR then 2 else 0) + (if s.CFGD then 1 else 0) := by
  cases he : s.ERR <;> cases hc : s.CFGD <;> simp [statusWord, he, hc]

/-- Settles O45: the statement's list is the bus map with each register's value. -/
theorem readsAnswerTheRegister : Obligations.ReadsAnswerTheRegister := by
  intro s off v rest hp hmem
  rw [← statusWord_eq_add] at hmem
  change (off, v) ∈ registers.map (fun r => (offsetOf r, readRegister s r)) at hmem
  obtain ⟨r, -, heq⟩ := List.mem_map.1 hmem
  cases heq
  exact step_read_register hp

/-- The registers that a host write stores into: those of the map but `CMD` and the read-only ones (R51, R52). -/
def hostWritable : List Reg := [.CFGIN, .RGB, .H, .S, .V, .INT, .POS, .PERIOD, .IDX, .FRAME, .TGT, .RAW]

/-- The read-only registers (R51). -/
def readOnly : List Reg := [.STATUS, .CAUSE, .FINFO, .CFG]

/-- The state with the word stored in a host-writable register, `RGB` without bits 31:24 (R23). -/
def storeRegister (r : Reg) (v : Word) (s : State) : State :=
  match r with
  | .CMD | .STATUS | .CAUSE | .FINFO | .CFG => s
  | .CFGIN => { s with CFGIN := v }
  | .RGB => { s with RGB := v.extractLsb' 0 24 }
  | .H => { s with H := v }
  | .S => { s with S := v }
  | .V => { s with V := v }
  | .INT => { s with INT := v }
  | .POS => { s with POS := v }
  | .PERIOD => { s with PERIOD := v }
  | .IDX => { s with IDX := v }
  | .FRAME => { s with FRAME := v }
  | .TGT => { s with TGT := v }
  | .RAW => { s with RAW := v }

/-- A write of a host-writable register answers `OKAY` and stores, whatever `STATUS` is (R52, R58). -/
theorem writeRegister_hostWritable {r : Reg} (hr : r ∈ hostWritable) (v : Word) (s : State) :
    writeRegister r v s = .next { storeRegister r v s with answer := some (.write .okay) } := by
  cases r
  case CMD | STATUS | CAUSE | FINFO | CFG => simp [hostWritable] at hr
  case RGB => simp [writeRegister, storeRegister, reply, BitVec.setWidth_eq_extractLsb']
  all_goals rfl

theorem writeRegister_readOnly {r : Reg} (hr : r ∈ readOnly) (v : Word) (s : State) :
    writeRegister r v s = .next { s with answer := some (.write .error) } := by
  cases r
  case STATUS | CAUSE | FINFO | CFG => rfl
  all_goals simp [readOnly] at hr

/-- The stored word does not depend on the inputs that wait. -/
theorem storeRegister_pending (r : Reg) (v : Word) (s : State) (rest : List Input) :
    storeRegister r v { s with pending := rest } = { storeRegister r v s with pending := rest } := by
  cases r <;> rfl

/-- Settles O46: the statement's list is the host-writable registers with the state each write leaves. -/
theorem writesStoreTheRegister : Obligations.WritesStoreTheRegister := by
  intro s t off v rest hp hmem
  change (off, t) ∈ hostWritable.map (fun r => (offsetOf r, storeRegister r v s)) at hmem
  obtain ⟨r, hr, heq⟩ := List.mem_map.1 hmem
  cases heq
  rw [step_write_register hp, writeRegister_hostWritable hr, storeRegister_pending]

/-- Settles O47: an illegal access reaches no register, and a read-only one refuses the write. -/
theorem illegalAccessesAnswerError : Obligations.IllegalAccessesAnswerError := by
  intro s width off v rest
  refine ⟨fun h hp => step_read_error hp (target_read_illegal h), fun h hp => ?_⟩
  by_cases hill : width ≠ 4 ∨ off.toNat % 4 ≠ 0 ∨ 0x44 ≤ off.toNat
  · exact step_write_error hp (target_write_illegal v hill)
  · have hw : width = 4 := by omega
    have hro : off ∈ readOnly.map offsetOf := by tauto
    subst hw
    obtain ⟨r, hr, rfl⟩ := List.mem_map.1 hro
    rw [step_write_register hp, writeRegister_readOnly hr]

/-! A flush as the sink sees it (R55, R61). -/

theorem sinkCalls_length (e : FlushEvent) : (sinkCalls e).length = e.snapshot.length + 1 := by
  simp [sinkCalls]

/-- The last call is the one `flush()`. -/
theorem sinkCalls_getElem?_last (e : FlushEvent) : (sinkCalls e)[e.snapshot.length]? = some .flush := by
  simp [sinkCalls]

/-- Call `i` sets slot `i` (ascending order, R61). -/
theorem sinkCalls_getElem?_slot {e : FlushEvent} {i : Nat} {w : Word} (h : e.snapshot[i]? = some w) :
    (sinkCalls e)[i]? = some (.setRaw i (slotBytes e.proto w)) := by
  obtain ⟨hi, rfl⟩ := List.getElem?_eq_some_iff.1 h
  simp [sinkCalls, List.getElem?_append_left, hi]

/-- Settles O44: the calls by position, with the bytes of each protocol. -/
theorem flushStandsForTheSinkCalls : Obligations.FlushStandsForTheSinkCalls := by
  intro e
  refine ⟨sinkCalls_length e, sinkCalls_getElem?_last e, fun i w h => ⟨fun hproto => ?_, fun hproto => ?_⟩⟩ <;>
    rw [sinkCalls_getElem?_slot h, hproto] <;> rfl

/-! Two runs that differ only in what the host cannot read: the buffer, what the sink was shown, and the strip (R54).
The relation asks for equally many flushes, on which the sink's free answer depends (log entry 3); so every step keeps
it, and not the first alone. -/

/-- `t` is `s` but for the pixel buffer, the displayed frame and the contents of an equally long history. -/
inductive SameToHost (s : State) : State → Prop
  | mk (m : Memory) (es : List FlushEvent) (d : List Word) (hlen : es.length = s.events.length) :
      SameToHost s { s with PB := m, events := es, DISP := d }

/-- Two outcomes that the host cannot tell apart. -/
inductive SameOutcome : Host.Outcome State Fault Refusal → Host.Outcome State Fault Refusal → Prop
  | next {s t : State} (h : SameToHost s t) : SameOutcome (.next s) (.next t)
  | refused (r : Refusal) : SameOutcome (.refused r) (.refused r)

/-- An operation whose result shows the host nothing of the buffer. -/
def BufferBlind (f : State → State) : Prop := ∀ s t, SameToHost s t → SameToHost (f s) (f t)

theorem sameToHost_setPB (s : State) (m : Memory) : SameToHost s { s with PB := m } := .mk m s.events s.DISP rfl

theorem SameToHost.readRegister_eq {s t : State} (h : SameToHost s t) (r : Reg) :
    readRegister t r = readRegister s r := by
  cases h
  cases r <;> rfl

theorem SameToHost.nextAnswer_eq {s t : State} (h : SameToHost s t) : nextAnswer t = nextAnswer s := by
  cases h with
  | mk m es d hlen => simp only [nextAnswer, hlen]

theorem bufferBlind_id : BufferBlind fun s => s := fun _ _ h => h

theorem BufferBlind.comp {f g : State → State} (hg : BufferBlind g) (hf : BufferBlind f) :
    BufferBlind fun s => g (f s) := fun s t h => hg _ _ (hf s t h)

/-- Fault entry, as every operation on the registers alone, leaves what is hidden as it is and does not look at it. -/
theorem raiseFault_blind (c : Cause) (info : Word) : BufferBlind (raiseFault c info) :=
  fun _ _ ⟨m, es, d, hlen⟩ => .mk m es d hlen

theorem reply_blind (a : BusAnswer) : BufferBlind (reply a) :=
  fun _ _ ⟨m, es, d, hlen⟩ => .mk m es d hlen

theorem acknowledge_blind : BufferBlind acknowledge :=
  fun _ _ ⟨m, es, d, hlen⟩ => .mk m es d hlen

/-- Either history gets one more event, with the answer that both runs share. -/
theorem emitFlush_blind : BufferBlind emitFlush := by
  intro s t h
  have ha := h.nextAnswer_eq
  cases h with
  | mk m es d hlen =>
    have hlen' : (emitFlush { s with PB := m, events := es, DISP := d }).events.length =
        (emitFlush s).events.length := by simp [hlen]
    exact .mk m _ _ hlen'

theorem doFlush_blind : BufferBlind doFlush := by
  intro s t h
  rcases doFlush_cases s with ⟨ha, hs⟩ | ⟨ha, hs⟩ <;> rw [hs]
  · rw [doFlush_ok (h.nextAnswer_eq.trans ha)]
    exact emitFlush_blind s t h
  · rw [doFlush_fail (h.nextAnswer_eq.trans ha)]
    exact raiseFault_blind _ _ _ _ (emitFlush_blind s t h)

theorem fillRaw_blind : BufferBlind fillRaw :=
  fun _ _ ⟨_, es, d, hlen⟩ => .mk _ es d hlen

/-- The finite check reads a register, the same word `w` in both states. -/
theorem withFinite_same {s t : State} (h : SameToHost s t) (r : Reg) (w : Word) {k k' : ℚ → State}
    (hk : ∀ x, SameToHost (k x) (k' x)) : SameToHost (withFinite r w s k) (withFinite r w t k') := by
  cases hv : val w with
  | none =>
    rw [withFinite_none hv, withFinite_none hv]
    exact raiseFault_blind _ _ s t h
  | some x =>
    rw [withFinite_some hv, withFinite_some hv]
    exact hk x

/-- The index check reads `CFG` and `IDX` alone. -/
theorem putRaw_blind {k : State → State} (hk : BufferBlind k) : BufferBlind fun s => putRaw s k := by
  rintro s _ ⟨m, es, d, hlen⟩
  unfold putRaw
  dsimp only
  split
  · exact raiseFault_blind _ _ _ _ (.mk m es d hlen)
  · exact hk _ _ (.mk _ es d hlen)

theorem encodeRaw_blind {k : State → State} (hk : BufferBlind k) : BufferBlind fun s => encodeRaw s k := by
  rintro s _ ⟨m, es, d, hlen⟩
  exact withFinite_same (.mk m es d hlen) .INT s.INT fun _ => hk _ _ (.mk m es d hlen)

/-- Which pixel is lit is read off the registers (R152). -/
theorem selectRaw_blind (lit : Word → Word → Bool) : BufferBlind fun s => selectRaw (lit s.IDX s.TGT) s := by
  rintro s _ ⟨m, es, d, hlen⟩
  exact withFinite_same (.mk m es d hlen) .INT s.INT fun _ => .mk m es d hlen

theorem wheelPosition_blind (f : Nat → Nat → Nat → Nat) : BufferBlind (wheelPosition f) := by
  rintro s _ ⟨m, es, d, hlen⟩
  unfold wheelPosition
  dsimp only
  split
  · exact raiseFault_blind _ _ _ _ (.mk m es d hlen)
  · exact .mk m es d hlen

/-- The gates of dispatch read `STATUS` alone (R72). -/
theorem command_same {i : Instr} {body : State → State} (hx : ∀ s, exec i s = command i s body)
    (hb : BufferBlind body) {s t : State} (h : SameToHost s t) : SameOutcome (exec i s) (exec i t) := by
  rw [hx, hx]
  have hf := raiseFault_blind .notConfigured (encode i) s t h
  have hbody := hb s t h
  have hs := h
  cases h
  unfold command
  dsimp only
  split
  · exact .next hs
  · split
    · exact .next hf
    · exact .next hbody

/-- No command shows the host anything of a slot. -/
theorem exec_same (i : Instr) {s t : State} (h : SameToHost s t) : SameOutcome (exec i s) (exec i t) := by
  cases i with
  | clrerr => exact .next (acknowledge_blind s t h)
  | nop => exact command_same exec_nop bufferBlind_id h
  | init =>
    refine command_same exec_init ?_ h
    rintro s _ ⟨m, es, d, hlen⟩
    dsimp only
    split
    · exact raiseFault_blind _ _ _ _ (.mk m es d hlen)
    · exact .mk _ es d hlen
  | rgb2hsv => exact command_same exec_rgb2hsv (fun _ _ ⟨m, es, d, hlen⟩ => .mk m es d hlen) h
  | hsv2rgb =>
    refine command_same exec_hsv2rgb ?_ h
    rintro s _ ⟨m, es, d, hlen⟩
    have hs : SameToHost s { s with PB := m, events := es, DISP := d } := .mk m es d hlen
    exact withFinite_same hs .H s.H fun _ => withFinite_same hs .S s.S fun _ =>
      withFinite_same hs .V s.V fun _ => .mk m es d hlen
  | wheel =>
    refine command_same exec_wheel ?_ h
    rintro s _ ⟨m, es, d, hlen⟩
    refine withFinite_same (.mk m es d hlen) .INT s.INT fun _ => ?_
    split
    · exact raiseFault_blind _ _ _ _ (.mk m es d hlen)
    · exact .mk m es d hlen
  | enc => exact command_same exec_enc (encodeRaw_blind bufferBlind_id) h
  | sel => exact command_same exec_sel (selectRaw_blind fun idx tgt => idx == tgt) h
  | selInv => exact command_same exec_selInv (selectRaw_blind fun idx tgt => !(idx == tgt)) h
  | tidx => exact command_same exec_tidx (fun _ _ ⟨m, es, d, hlen⟩ => .mk m es d hlen) h
  | tidxBnc => exact command_same exec_tidxBnc (fun _ _ ⟨m, es, d, hlen⟩ => .mk m es d hlen) h
  | fade => exact command_same exec_fade (fun _ _ ⟨m, es, d, hlen⟩ => .mk m es d hlen) h
  | fadeOut => exact command_same exec_fadeOut (fun _ _ ⟨m, es, d, hlen⟩ => .mk m es d hlen) h
  | wpos => exact command_same exec_wpos (wheelPosition_blind _) h
  | wposRb => exact command_same exec_wposRb (wheelPosition_blind _) h
  | put => exact command_same exec_put (putRaw_blind bufferBlind_id) h
  | putFl => exact command_same exec_putFl (putRaw_blind doFlush_blind) h
  | fill => exact command_same exec_fill fillRaw_blind h
  | fillFl => exact command_same exec_fillFl (doFlush_blind.comp fillRaw_blind) h
  | flush => exact command_same exec_flush doFlush_blind h
  | set => exact command_same exec_set (encodeRaw_blind (putRaw_blind doFlush_blind)) h
  | setAll => exact command_same exec_setAll (encodeRaw_blind (doFlush_blind.comp fillRaw_blind)) h
  | clear => exact command_same exec_clear (doFlush_blind.comp fun _ _ ⟨_, es, d, hlen⟩ => .mk _ es d hlen) h

theorem runWord_same (w : Word) {s t : State} (h : SameToHost s t) : SameOutcome (runWord w s) (runWord w t) := by
  have hf := raiseFault_blind .illegalCommand w s t h
  unfold runWord
  split
  · exact exec_same _ h
  · cases h with
    | mk m es d hlen =>
      dsimp only
      split
      · exact .next (.mk m es d hlen)
      · exact .next hf

theorem writeRegister_same (r : Reg) (v : Word) {s t : State} (h : SameToHost s t) :
    SameOutcome (writeRegister r v s) (writeRegister r v t) := by
  cases r
  case CMD => exact runWord_same v (reply_blind _ s t h)
  all_goals
    obtain ⟨m, es, d, hlen⟩ := h
    exact .next (.mk m es d hlen)

/-- A read answers a register, and no register is a slot (R54). -/
theorem serve_same (tr : Transaction) {s t : State} (h : SameToHost s t) : SameOutcome (serve tr s) (serve tr t) := by
  unfold serve
  split
  · rw [h.readRegister_eq]
    exact .next (reply_blind _ s t h)
  · exact .next (reply_blind _ s t h)
  · exact writeRegister_same _ _ h
  · exact .next (reply_blind _ s t h)

theorem receive_same (i : Input) {s t : State} (h : SameToHost s t) : SameOutcome (receive i s) (receive i t) := by
  cases i with
  | bus tr => exact serve_same tr h
  | secondMaster tr => exact .refused _
  | reset =>
    obtain ⟨m, es, d, hlen⟩ := h
    exact .next (.mk _ es d hlen)

/-- Whatever input comes next, the step reads it off what the two states share (R20). -/
theorem step_same {s t : State} (h : SameToHost s t) : SameOutcome (step s) (step t) := by
  have hs := h
  obtain ⟨m, es, d, hlen⟩ := h
  unfold step
  dsimp only
  split
  · exact .next hs
  · exact receive_same _ (.mk m es d hlen)

/-- Settles O48: two states that differ only in the buffer are the same to the host, and one step keeps that. -/
theorem hostCannotReadTheBuffer : Obligations.HostCannotReadTheBuffer := by
  intro s t m hstep
  have hsame := step_same (sameToHost_setPB s m)
  rw [hstep] at hsame
  generalize step { s with PB := m } = o at hsame
  cases hsame with
  | next h =>
    cases h with
    | mk m' es d hlen => exact ⟨_, rfl, rfl⟩

end Sys2Proof.Machine

/-! Command words: the decoder and the encoder (R71 to R76). -/

namespace Sys2Proof

/-! Format C (R71): a word and its three fields determine each other. -/

@[simp] theorem joinWord_splitWord (w : Word) : joinWord (splitWord w) = w := by
  have hflag : BitVec.ofBool (w.getLsbD 8) = w.extractLsb' 8 1 := by
    ext k hk
    obtain rfl : k = 0 := by omega
    simp
  simp only [joinWord, splitWord, hflag]
  rw [BitVec.extractLsb'_append_extractLsb'_eq_extractLsb' (start₂ := 9) (start₁ := 8) (len₁ := 1) rfl,
    BitVec.extractLsb'_append_extractLsb'_eq_extractLsb' (start₂ := 8) (start₁ := 0) (len₁ := 8) rfl,
    BitVec.extractLsb'_eq_self]

@[simp] theorem splitWord_joinWord (c : CommandWord) : splitWord (joinWord c) = c := by
  obtain ⟨op, flag, z⟩ := c
  have hop : (joinWord ⟨op, flag, z⟩).extractLsb' 0 8 = op := BitVec.extractLsb'_append_eq_right
  have hflag : (joinWord ⟨op, flag, z⟩).getLsbD 8 = flag := by
    unfold joinWord
    rw [BitVec.getLsbD_append, if_neg (by decide), BitVec.getLsbD_append, if_pos (by decide)]
    simp
  have hz : (joinWord ⟨op, flag, z⟩).extractLsb' 9 23 = z :=
    (BitVec.extractLsb'_append_eq_of_le (by decide)).trans BitVec.extractLsb'_append_eq_left
  simp only [splitWord, hop, hflag, hz]

/-- The encoder's word is the one word with the command's fields. -/
theorem splitWord_eq_fieldsOf {w : Word} {i : Instr} : splitWord w = fieldsOf i ↔ w = encode i := by
  constructor
  · intro h
    rw [encode, ← h, joinWord_splitWord]
  · rintro rfl
    exact splitWord_joinWord _

/-! The opcode map (R73) and dispatch step 2 (R72). -/

/-- The map lists a command under its own opcode and flag, and under no others. -/
theorem lookupOpcode_eq_some {op : BitVec 8} {flag : Bool} {i : Instr} :
    lookupOpcode op flag = some i ↔ fieldsOf i = ⟨op, flag, 0⟩ := by
  constructor
  · intro h
    unfold lookupOpcode at h
    split at h <;> cases h
    all_goals
      rename_i hop
      exact congrArg (CommandWord.mk · _ 0) (BitVec.eq_of_toNat_eq hop.symm)
  · intro h
    cases i <;> cases h <;> rfl

/-- Every command's fields pass the checks of dispatch (R72 step 2). -/
theorem fieldsOf_wellFormed (i : Instr) : (fieldsOf i).wellFormed = true := by
  cases i <;> rfl

/-- A word decodes to a command exactly when its fields are the command's. -/
theorem decode_eq_ok {w : Word} {i : Instr} : decode w = .ok i ↔ splitWord w = fieldsOf i := by
  constructor
  · intro h
    unfold decode at h
    dsimp only at h
    split_ifs at h with hz hop
    split at h <;> cases h
    rename_i hl
    have hz : (splitWord w).z = 0 := by simpa [CommandWord.reservedZero] using hz
    rw [lookupOpcode_eq_some.1 hl, ← hz]
  · intro h
    have hl : lookupOpcode (fieldsOf i).op (fieldsOf i).flag = some i := by cases i <;> rfl
    have hwf := fieldsOf_wellFormed i
    simp only [CommandWord.wellFormed, Bool.and_eq_true] at hwf
    obtain ⟨⟨hz, hop⟩, -⟩ := hwf
    simp [decode, h, hz, hop, hl]

/-- Settles O2: both sides say that the word's fields are those of the command. -/
theorem decodeInvertsEncode : Obligations.DecodeInvertsEncode := by
  intro w i _
  exact decode_eq_ok.trans splitWord_eq_fieldsOf

/-- The commands in the order of R73. -/
def opcodeOrder : List Instr :=
  [.nop, .init, .clrerr, .rgb2hsv, .hsv2rgb, .wheel, .enc, .sel, .selInv, .tidx, .tidxBnc, .fade, .fadeOut, .wpos,
    .wposRb, .put, .putFl, .fill, .fillFl, .flush, .set, .setAll, .clear]

theorem mem_opcodeOrder (i : Instr) : i ∈ opcodeOrder := by cases i <;> decide

/-- Settles O1: the table lists every command once, with the encoder's word and the mnemonic. -/
theorem decodeReadsTheOpcodeMap : Obligations.DecodeReadsTheOpcodeMap := by
  intro w i name
  change _ ↔ (w, i, name) ∈ opcodeOrder.map fun i => (encode i, i, mnemonic i)
  rw [decode_eq_ok, splitWord_eq_fieldsOf]
  constructor
  · rintro ⟨rfl, rfl⟩
    exact List.mem_map_of_mem (mem_opcodeOrder i)
  · intro h
    obtain ⟨j, -, heq⟩ := List.mem_map.1 h
    cases heq
    exact ⟨rfl, rfl⟩

/-- A word whose fields fail a check of dispatch is no command (R75). -/
theorem decode_illegal {w : Word} (h : (splitWord w).wellFormed = false) : ∃ e, decode w = .error e := by
  cases hd : decode w with
  | error e => exact ⟨e, rfl⟩
  | ok i =>
    rw [decode_eq_ok.1 hd, fieldsOf_wellFormed] at h
    cases h

/-- Settles O3: the legal words have the fields of their rows; each illegal word fails the check it is named for. -/
theorem writtenWordsDecode : Obligations.WrittenWordsDecode :=
  ⟨decode_eq_ok.2 rfl, decode_eq_ok.2 rfl, decode_eq_ok.2 rfl, decode_eq_ok.2 rfl, rfl, rfl, rfl⟩

end Sys2Proof

/-! Dispatch of an illegal word and the gates before a command's own rule (R72, R75). -/

namespace Sys2Proof.Machine

/-- An illegal word raises `IllegalCommand` with the word (R75). -/
theorem runWord_illegal {w : Word} {s : State} (hw : (splitWord w).wellFormed = false) (he : s.ERR = false) :
    runWord w s = .next (raiseFault .illegalCommand w s) := by
  obtain ⟨e, hd⟩ := decode_illegal hw
  simp [runWord, hd, he]

/-- The opcodes of the nine commands without a flag (R73). -/
def unflaggedOpcodes : List (BitVec 8) := [0x00, 0x01, 0x02, 0x10, 0x11, 0x12, 0x20, 0x32, 0x34]

theorem not_flagged_of_unflagged : ∀ op ∈ unflaggedOpcodes, op ∉ flaggedOpcodes := by decide

/-- Each of the three ways to be illegal fails a check of dispatch (R75). -/
theorem not_wellFormed_of_illegal {c : CommandWord}
    (h : c.z ≠ 0 ∨ c.op ∉ opcodes ∨ (c.flag = true ∧ c.op ∈ unflaggedOpcodes)) : c.wellFormed = false := by
  rcases h with hz | hop | ⟨hflag, hop⟩
  · have hz : c.reservedZero = false := beq_false_of_ne hz
    simp [CommandWord.wellFormed, hz]
  · simp [CommandWord.wellFormed, CommandWord.opcodeKnown, hop]
  · simp [CommandWord.wellFormed, CommandWord.flagAllowed, hflag, not_flagged_of_unflagged _ hop]

/-- Settles O5: the written word fails a check of dispatch, whichever of the three it is. -/
theorem illegalWordsRaiseIllegalCommand : Obligations.IllegalWordsRaiseIllegalCommand := by
  intro s w rest hp he h
  have hw : (splitWord w).wellFormed = false := not_wellFormed_of_illegal h
  rw [step_write_CMD hp]
  exact runWord_illegal hw he

/-- The fifteen forms that need a configuration (R74). -/
def configNeeders : List Instr :=
  [.enc, .sel, .selInv, .tidx, .tidxBnc, .wpos, .wposRb, .put, .putFl, .fill, .fillFl, .flush, .set, .setAll, .clear]

theorem needsCfgd_iff_mem {i : Instr} : needsCfgd i = true ↔ i ∈ configNeeders := by
  cases i <;> decide

/-- Every command but `CLRERR` is ignored while a fault is recorded (R204). -/
theorem exec_err {i : Instr} {s : State} (hi : i ≠ .clrerr) (he : s.ERR = true) : exec i s = .next s := by
  obtain ⟨body, hx⟩ := exec_eq_command hi
  rw [hx, command_err body he]

/-- Without a configuration a command that needs one raises `NotConfigured` with its word (R72 step 3). -/
theorem exec_notConfigured {i : Instr} {s : State} (hn : needsCfgd i = true) (he : s.ERR = false)
    (hc : s.CFGD = false) : exec i s = .next (raiseFault .notConfigured (encode i) s) := by
  have hi : i ≠ .clrerr := by
    rintro rfl
    cases hn
  obtain ⟨body, hx⟩ := exec_eq_command hi
  rw [hx, command_notConfigured body he hn hc]

/-- Settles O7: the gates stand in `command`, around every meaning but that of `CLRERR`. -/
theorem dispatchGatesCommands : Obligations.DispatchGatesCommands :=
  ⟨fun _ _ hi he => exec_err hi he,
    fun _ _ he hc hmem => exec_notConfigured (needsCfgd_iff_mem.2 hmem) he hc⟩

end Sys2Proof.Machine

/-! What each command may write and raise (R74, R202). The rows are kept as lists of commands, one list for each
register or cause; `RowEffect` says once what a command can do within its row. -/

namespace Sys2Proof.Machine

/-- The commands that write `RAW` (R74). -/
def rawWriters : List Instr := [.enc, .sel, .selInv, .set, .setAll, .clear]

/-- The commands that store in the one slot `IDX` (R128, R131). -/
def slotWriters : List Instr := [.put, .putFl, .set]

/-- The commands that store in the buffer (R74). -/
def bufferWriters : List Instr := [.init, .put, .putFl, .fill, .fillFl, .set, .setAll, .clear]

/-- The commands that flush (R74). -/
def flushers : List Instr := [.putFl, .fillFl, .flush, .set, .setAll, .clear]

/-- The commands whose row of R202 names a cause; code 3 and `IllegalCommand` are no command's (R215, R75). -/
def raisers : Cause → List Instr
  | .invalidConfig => [.init]
  | .indexOutOfRange => [.wpos, .wposRb, .put, .putFl, .set]
  | .invalidColorFormat => []
  | .hardwareWriteFailure => flushers
  | .illegalCommand => []
  | .invalidOperand => [.hsv2rgb, .wheel, .enc, .sel, .selInv, .set, .setAll]
  | .notConfigured => configNeeders

/-- The commands that never fault (R202). -/
def neverRaising : List Instr := [.nop, .rgb2hsv, .fade, .fadeOut]

theorem not_raiser_of_neverRaising : ∀ i ∈ neverRaising, ∀ c, i ∉ raisers c := by
  intro i hi c
  revert i
  cases c <;> decide

theorem slotWriters_subset : ∀ i ∈ slotWriters, i ∈ bufferWriters := by decide

/-- From `s` to `t` command `i` changed nothing outside its row of R74, the fault registers apart. -/
structure RowKept (i : Instr) (s t : State) : Prop where
  inputs : t.PERIOD = s.PERIOD ∧ t.IDX = s.IDX ∧ t.FRAME = s.FRAME ∧ t.CFGIN = s.CFGIN ∧ t.npixMax = s.npixMax ∧
    t.pending = s.pending ∧ t.answer = s.answer
  hsv : i ≠ .rgb2hsv → t.H = s.H ∧ t.S = s.S ∧ t.V = s.V
  rgb : i ∉ ([.hsv2rgb, .wheel] : List Instr) → t.RGB = s.RGB
  int : i ∉ ([.fade, .fadeOut] : List Instr) → t.INT = s.INT
  pos : i ∉ ([.wpos, .wposRb] : List Instr) → t.POS = s.POS
  tgt : i ∉ ([.tidx, .tidxBnc] : List Instr) → t.TGT = s.TGT
  raw : i ∉ rawWriters → t.RAW = s.RAW
  config : i ≠ .init → t.CFG = s.CFG ∧ t.CFGD = s.CFGD
  buffer : i ∉ bufferWriters → t.PB = s.PB
  otherSlots : i ∈ slotWriters → ∀ j, j ≠ s.IDX.toNat → readSlot t.PB j = readSlot s.PB j
  outside : ∀ j, countOf t.CFG ≤ j → readSlot t.PB j = readSlot s.PB j
  strip : i ∉ flushers → t.events = s.events ∧ t.DISP = s.DISP ∧ t.sinkAnswers = s.sinkAnswers

/-- As `RowKept`, on the way through command `i`'s own rule: no fault was raised so far, and the memory is canonical. -/
structure RowWritten (i : Instr) (s t : State) : Prop extends RowKept i s t where
  memoryWf : Memory.wf t.PB = true
  fault : t.ERR = s.ERR ∧ t.CAUSE = s.CAUSE ∧ t.FINFO = s.FINFO

theorem RowWritten.refl (i : Instr) {s : State} (hm : Memory.wf s.PB = true) : RowWritten i s s where
  inputs := ⟨rfl, rfl, rfl, rfl, rfl, rfl, rfl⟩
  hsv _ := ⟨rfl, rfl, rfl⟩
  rgb _ := rfl
  int _ := rfl
  pos _ := rfl
  tgt _ := rfl
  raw _ := rfl
  config _ := ⟨rfl, rfl⟩
  buffer _ := rfl
  otherSlots _ _ _ := rfl
  outside _ _ := rfl
  strip _ := ⟨rfl, rfl, rfl⟩
  memoryWf := hm
  fault := ⟨rfl, rfl, rfl⟩

theorem RowKept.raiseFault {i : Instr} {s u : State} (h : RowKept i s u) (c : Cause) (info : Word) :
    RowKept i s (raiseFault c info u) := { h with }

theorem RowKept.acknowledge {i : Instr} {s u : State} (h : RowKept i s u) : RowKept i s (acknowledge u) := { h with }

/-! Each register write stays inside the row of the commands that make it. -/

section Writes

variable {i : Instr} {s u : State} (h : RowWritten i s u)
include h

theorem RowWritten.setHsv (hi : i = .rgb2hsv) (x y z : Word) : RowWritten i s { u with H := x, S := y, V := z } :=
  { h with hsv := fun hn => absurd hi hn }

theorem RowWritten.setRgb (hi : i ∈ ([.hsv2rgb, .wheel] : List Instr)) (c : BitVec 24) :
    RowWritten i s { u with RGB := c } :=
  { h with rgb := fun hn => absurd hi hn }

theorem RowWritten.setInt (hi : i ∈ ([.fade, .fadeOut] : List Instr)) (w : Word) :
    RowWritten i s { u with INT := w } :=
  { h with int := fun hn => absurd hi hn }

theorem RowWritten.setPos (hi : i ∈ ([.wpos, .wposRb] : List Instr)) (w : Word) :
    RowWritten i s { u with POS := w } :=
  { h with pos := fun hn => absurd hi hn }

theorem RowWritten.setTgt (hi : i ∈ ([.tidx, .tidxBnc] : List Instr)) (w : Word) :
    RowWritten i s { u with TGT := w } :=
  { h with tgt := fun hn => absurd hi hn }

theorem RowWritten.setRaw (hi : i ∈ rawWriters) (w : Word) : RowWritten i s { u with RAW := w } :=
  { h with raw := fun hn => absurd hi hn }

/-- A one-slot store changes the slot `IDX` of the strip alone (R54). -/
theorem RowWritten.storeSlot (hi : i ∈ slotWriters) (hlt : u.IDX.toNat < countOf u.CFG) (v : Word) :
    RowWritten i s { u with PB := writeSlot u.PB u.IDX.toNat v } :=
  have hidx : u.IDX = s.IDX := h.inputs.2.1
  { h with
    buffer := fun hn => absurd (slotWriters_subset i hi) hn
    otherSlots := fun _ j hj =>
      (readSlot_writeSlot_other h.memoryWf (hidx ▸ hj) v).trans (h.otherSlots hi j hj)
    outside := fun j hj =>
      (readSlot_writeSlot_other h.memoryWf (lt_of_lt_of_le hlt hj).ne' v).trans (h.outside j hj)
    memoryWf := wf_writeSlot h.memoryWf _ v }

/-- A broadcast store changes slots of the strip alone (R54). -/
theorem RowWritten.fillStrip (hi : i ∈ bufferWriters) (hn : i ∉ slotWriters) (v : Word) :
    RowWritten i s { u with PB := fillSlots u.PB (countOf u.CFG) v } :=
  { h with
    buffer := fun hb => absurd hi hb
    otherSlots := fun hs => absurd hs hn
    outside := fun j hj => (readSlot_fillSlots_ge u.PB hj v).trans (h.outside j hj)
    memoryWf := wf_fillSlots h.memoryWf _ v }

theorem RowWritten.emitFlush (hi : i ∈ flushers) : RowWritten i s (emitFlush u) :=
  { h with strip := fun hn => absurd hi hn }

end Writes

/-- A successful `INIT` changes no slot outside the new strip (R120). -/
theorem rowWritten_latch {s : State} (hm : Memory.wf s.PB = true) :
    RowWritten .init s
      { s with CFG := s.CFGIN, PB := fillSlots s.PB (countOf s.CFGIN) 0x00000000, CFGD := true } :=
  { RowWritten.refl .init hm with
    config := fun hn => absurd rfl hn
    buffer := fun hn => absurd (by decide) hn
    otherSlots := fun hi => absurd hi (by decide)
    outside := fun _ hj => readSlot_fillSlots_ge s.PB hj _
    memoryWf := wf_fillSlots hm _ _ }

/-- Everything command `i` can do, within its rows of R74 and R202. -/
inductive RowEffect (i : Instr) (s : State) : State → Prop
  /-- `CLRERR` -/
  | acknowledged (hi : i = .clrerr) (hs : RowWritten i s s) : RowEffect i s (acknowledge s)
  /-- the row's writes, or none while a fault is recorded -/
  | done {u : State} (hu : RowWritten i s u) : RowEffect i s u
  /-- a fault that the row names, possibly after some of its writes -/
  | faulted {u : State} {c : Cause} (he : s.ERR = false) (hu : RowWritten i s u) (hi : i ∈ raisers c) (info : Word) :
      RowEffect i s (raiseFault c info u)

/-! The shared operations, on the way through a command's own rule. -/

section Operations

variable {i : Instr} {s u : State} (he : s.ERR = false) (hu : RowWritten i s u)
include he hu

theorem withFinite_row (hi : i ∈ raisers .invalidOperand) (r : Reg) (w : Word) {k : ℚ → State}
    (hk : ∀ x, RowEffect i s (k x)) : RowEffect i s (withFinite r w u k) := by
  rcases withFinite_cases r w u k with ⟨-, h⟩ | ⟨x, -, h⟩ <;> rw [h]
  · exact .faulted he hu hi _
  · exact hk x

theorem encodeRaw_row (hi : i ∈ raisers .invalidOperand) (hr : i ∈ rawWriters) {k : State → State}
    (hk : ∀ v, RowWritten i s v → RowEffect i s (k v)) : RowEffect i s (encodeRaw u k) :=
  withFinite_row he hu hi .INT u.INT fun _ => hk _ (hu.setRaw hr _)

theorem selectRaw_row (hi : i ∈ raisers .invalidOperand) (hr : i ∈ rawWriters) (lit : Bool) :
    RowEffect i s (selectRaw lit u) :=
  withFinite_row he hu hi .INT u.INT fun _ => .done (hu.setRaw hr _)

theorem wheelPosition_row (hi : i ∈ raisers .indexOutOfRange) (hp : i ∈ ([.wpos, .wposRb] : List Instr))
    (f : Nat → Nat → Nat → Nat) : RowEffect i s (wheelPosition f u) := by
  unfold wheelPosition
  dsimp only
  split
  · exact .faulted he hu hi _
  · exact .done (hu.setPos hp _)

theorem putRaw_row (hi : i ∈ raisers .indexOutOfRange) (hw : i ∈ slotWriters) {k : State → State}
    (hk : ∀ v, RowWritten i s v → RowEffect i s (k v)) : RowEffect i s (putRaw u k) := by
  rcases putRaw_cases u k with ⟨-, h⟩ | ⟨hlt, h⟩ <;> rw [h]
  · exact .faulted he hu hi _
  · exact hk _ (hu.storeSlot hw hlt _)

/-- A flush faults, if it does, with a cause that every flushing command's row names (R130). -/
theorem doFlush_row (hi : i ∈ flushers) : RowEffect i s (doFlush u) := by
  rcases doFlush_cases u with ⟨-, h⟩ | ⟨-, h⟩ <;> rw [h]
  · exact .done (hu.emitFlush hi)
  · exact .faulted (c := .hardwareWriteFailure) he (hu.emitFlush hi) hi 0

end Operations

/-- The gates raise only what the rows of the commands they stop name (R72). -/
theorem command_row {i : Instr} {s t : State} {body : State → State} (hs : RowWritten i s s)
    (hx : exec i s = command i s body) (h : exec i s = .next t) (hb : s.ERR = false → RowEffect i s (body s)) :
    RowEffect i s t := by
  rcases command_cases (hx ▸ h) with ⟨-, rfl⟩ | ⟨he, hn, -, rfl⟩ | ⟨he, -, rfl⟩
  · exact .done hs
  · exact .faulted (c := .notConfigured) he hs (needsCfgd_iff_mem.1 hn) _
  · exact hb he

/-- Every command stays within its rows. -/
theorem exec_row {i : Instr} {s t : State} (hm : Memory.wf s.PB = true) (h : exec i s = .next t) :
    RowEffect i s t := by
  have hs : RowWritten i s s := .refl i hm
  cases i with
  | nop => exact command_row hs (exec_nop s) h fun _ => .done hs
  | init =>
    refine command_row hs (exec_init s) h fun he => ?_
    split
    · exact .faulted (c := .invalidConfig) he hs (by decide) _
    · exact .done (rowWritten_latch hm)
  | clrerr => cases h; exact .acknowledged rfl hs
  | rgb2hsv => exact command_row hs (exec_rgb2hsv s) h fun _ => .done (hs.setHsv rfl _ _ _)
  | hsv2rgb =>
    exact command_row hs (exec_hsv2rgb s) h fun he =>
      withFinite_row he hs (by decide) .H s.H fun _ => withFinite_row he hs (by decide) .S s.S fun _ =>
        withFinite_row he hs (by decide) .V s.V fun _ => .done (hs.setRgb (by decide) _)
  | wheel =>
    refine command_row hs (exec_wheel s) h fun he => withFinite_row he hs (by decide) .INT s.INT fun _ => ?_
    split
    · exact .faulted (c := .invalidOperand) he hs (by decide) _
    · exact .done (hs.setRgb (by decide) _)
  | enc =>
    exact command_row hs (exec_enc s) h fun he => encodeRaw_row he hs (by decide) (by decide) fun _ hv => .done hv
  | sel => exact command_row hs (exec_sel s) h fun he => selectRaw_row he hs (by decide) (by decide) _
  | selInv => exact command_row hs (exec_selInv s) h fun he => selectRaw_row he hs (by decide) (by decide) _
  | tidx => exact command_row hs (exec_tidx s) h fun _ => .done (hs.setTgt (by decide) _)
  | tidxBnc => exact command_row hs (exec_tidxBnc s) h fun _ => .done (hs.setTgt (by decide) _)
  | fade => exact command_row hs (exec_fade s) h fun _ => .done (hs.setInt (by decide) _)
  | fadeOut => exact command_row hs (exec_fadeOut s) h fun _ => .done (hs.setInt (by decide) _)
  | wpos => exact command_row hs (exec_wpos s) h fun he => wheelPosition_row he hs (by decide) (by decide) _
  | wposRb => exact command_row hs (exec_wposRb s) h fun he => wheelPosition_row he hs (by decide) (by decide) _
  | put =>
    exact command_row hs (exec_put s) h fun he => putRaw_row he hs (by decide) (by decide) fun _ hv => .done hv
  | putFl =>
    exact command_row hs (exec_putFl s) h fun he =>
      putRaw_row he hs (by decide) (by decide) fun _ hv => doFlush_row he hv (by decide)
  | fill => exact command_row hs (exec_fill s) h fun _ => .done (hs.fillStrip (by decide) (by decide) _)
  | fillFl =>
    exact command_row hs (exec_fillFl s) h fun he =>
      doFlush_row he (hs.fillStrip (by decide) (by decide) _) (by decide)
  | flush => exact command_row hs (exec_flush s) h fun he => doFlush_row he hs (by decide)
  | set =>
    exact command_row hs (exec_set s) h fun he => encodeRaw_row he hs (by decide) (by decide) fun _ hv =>
      putRaw_row he hv (by decide) (by decide) fun _ hw => doFlush_row he hw (by decide)
  | setAll =>
    exact command_row hs (exec_setAll s) h fun he => encodeRaw_row he hs (by decide) (by decide) fun _ hv =>
      doFlush_row he (hv.fillStrip (by decide) (by decide) _) (by decide)
  | clear =>
    exact command_row hs (exec_clear s) h fun he =>
      doFlush_row he ((hs.setRaw (by decide) darkPixel).fillStrip (by decide) (by decide) _) (by decide)

/-! The clauses of the summaries, read off from the effect. -/

namespace RowEffect

variable {i : Instr} {s t : State}

theorem rowKept (h : RowEffect i s t) : RowKept i s t := by
  cases h with
  | acknowledged _ hs => exact hs.toRowKept.acknowledge
  | done hu => exact hu.toRowKept
  | faulted _ hu _ info => exact hu.toRowKept.raiseFault _ info

/-- A command that leaves no fault recorded leaves the fault registers, `CLRERR` apart. -/
theorem fault_of_noFault (h : RowEffect i s t) (ht : t.ERR = false) (hi : i ≠ .clrerr) :
    s.ERR = false ∧ t.CAUSE = s.CAUSE ∧ t.FINFO = s.FINFO := by
  cases h with
  | acknowledged hc _ => exact absurd hc hi
  | done hu => exact ⟨hu.fault.1.symm.trans ht, hu.fault.2⟩
  | faulted _ _ _ _ => cases ht

theorem fault_of_neverRaising (h : RowEffect i s t) (hi : i ∈ neverRaising) :
    t.ERR = s.ERR ∧ t.CAUSE = s.CAUSE ∧ t.FINFO = s.FINFO := by
  cases h with
  | acknowledged hc _ => subst hc; exact absurd hi (by decide)
  | done hu => exact hu.fault
  | faulted _ _ hr _ => exact absurd hr (not_raiser_of_neverRaising i hi _)

/-- A recorded fault is kept by every command but `CLRERR` (R204). -/
theorem fault_of_recorded (h : RowEffect i s t) (hs : s.ERR = true) (hi : i ≠ .clrerr) :
    t.ERR = true ∧ t.CAUSE = s.CAUSE ∧ t.FINFO = s.FINFO := by
  cases h with
  | acknowledged hc _ => exact absurd hc hi
  | done hu => exact ⟨hu.fault.1.trans hs, hu.fault.2⟩
  | faulted he _ _ _ => exact absurd (he.symm.trans hs) Bool.false_ne_true

/-- A new fault has a cause that the command's row names (R202). -/
theorem cause_of_raised (h : RowEffect i s t) (hs : s.ERR = false) (ht : t.ERR = true) :
    ∃ c, t.CAUSE = causeCode c ∧ i ∈ raisers c := by
  cases h with
  | acknowledged _ _ => cases ht
  | done hu => exact absurd (hs.symm.trans (hu.fault.1.symm.trans ht)) Bool.false_ne_true
  | faulted _ _ hr _ => exact ⟨_, rfl, hr⟩

end RowEffect

/-- Settles O57: every command stays within its rows, and the clauses are what a row's effect keeps and raises. -/
theorem commandsWriteOnlyTheirRow : Obligations.CommandsWriteOnlyTheirRow := by
  intro i s t hm hexec
  have h := exec_row hm hexec
  have hk := h.rowKept
  refine ⟨hk.inputs, hk.hsv, hk.rgb, hk.int, hk.pos, hk.tgt, hk.raw, hk.config, hk.buffer, hk.otherSlots, hk.outside,
    hk.strip, h.fault_of_noFault, h.fault_of_neverRaising, h.fault_of_recorded, fun hs ht => ?_⟩
  obtain ⟨c, hcause, hi⟩ := h.cause_of_raised hs ht
  cases c with
  | invalidConfig => exact .inl ⟨hcause, List.mem_singleton.1 hi⟩
  | indexOutOfRange => exact .inr (.inl ⟨hcause, hi⟩)
  | hardwareWriteFailure => exact .inr (.inr (.inl ⟨hcause, hi⟩))
  | invalidOperand => exact .inr (.inr (.inr (.inl ⟨hcause, hi⟩)))
  | notConfigured => exact .inr (.inr (.inr (.inr ⟨hcause, hi⟩)))
  | invalidColorFormat | illegalCommand => cases hi

end Sys2Proof.Machine

/-! SUPPORT. Rounding: `rhe` gives a nearest integer (R93), and a channel is that integer limited to a byte (R94). -/

namespace Sys2Proof.Machine

/-- Two integers at a distance below one half, or even and at one half, from one rational are the same. -/
theorem eq_of_nearest {q : ℚ} {m n : Int} (hm : |q - m| < 1 / 2 ∨ (|q - m| = 1 / 2 ∧ m % 2 = 0))
    (hn : |q - n| < 1 / 2 ∨ (|q - n| = 1 / 2 ∧ n % 2 = 0)) : m = n := by
  by_contra hne
  have hsep : (1 : ℚ) ≤ |(m : ℚ) - n| := by exact_mod_cast Int.one_le_abs (sub_ne_zero.2 hne)
  have hdist : |(m : ℚ) - n| ≤ |q - m| + |q - n| := abs_sub_comm q m ▸ abs_sub_le (m : ℚ) q n
  rcases hm with hm | ⟨hm, hmeven⟩ <;> rcases hn with hn | ⟨hn, hneven⟩
  case inr.inr =>
    have hone : |m - n| ≤ 1 := by exact_mod_cast (by linarith : |(m : ℚ) - n| ≤ 1)
    rw [abs_le] at hone
    omega
  all_goals linarith

/-- `rhe q` is at a distance below one half from `q`, or at one half and even (R93). -/
theorem rhe_nearest (q : ℚ) : |q - rhe q| < 1 / 2 ∨ (|q - rhe q| = 1 / 2 ∧ rhe q % 2 = 0) := by
  have h0 := Int.floor_le q
  have h1 := Int.lt_floor_add_one q
  simp only [rhe]
  split_ifs with hlt hgt heven
  · left; rw [abs_of_nonneg (by linarith)]; exact hlt
  · left; push_cast; rw [abs_of_nonpos (by linarith)]; linarith
  · right; rw [abs_of_nonneg (by linarith)]; exact ⟨by linarith, heven⟩
  · right; push_cast; rw [abs_of_nonpos (by linarith)]; exact ⟨by linarith, by omega⟩

/-- Settles O14: `rhe` gives such an integer, and there is one only. -/
theorem rheRoundsHalfToEven : Obligations.RheRoundsHalfToEven := fun q _ =>
  ⟨fun h => h ▸ rhe_nearest q, eq_of_nearest (rhe_nearest q)⟩

/-- No integer is nearer to `q` than `rhe q`, and another is as near only at a tie, where `rhe q` is even. -/
theorem rhe_nearest_int (q : ℚ) (j : Int) :
    |rhe q - q| ≤ |j - q| ∧ (|rhe q - q| = |j - q| → j = rhe q ∨ rhe q % 2 = 0) := by
  rw [abs_sub_comm (rhe q : ℚ), abs_sub_comm (j : ℚ)]
  have hle : |q - rhe q| ≤ 1 / 2 := by rcases rhe_nearest q with h | ⟨h, -⟩ <;> exact h.le
  by_cases hlt : |q - j| < 1 / 2
  · rw [(rheRoundsHalfToEven q j).2 (.inl hlt)]
    exact ⟨le_rfl, fun _ => .inl rfl⟩
  · refine ⟨by linarith, fun heq => ?_⟩
    rcases rhe_nearest q with h | ⟨-, h⟩
    · linarith
    · exact .inr h

/-! Channels (R94). -/

/-- A component within half a step of `c / 255` has the channel `c`. -/
theorem chan_of_near {x : ℚ} {c : Nat} (hc : c ≤ 255) (h : |255 * x - c| < 1 / 2) : chan x = c := by
  have hr : rhe (255 * x) = (c : Int) := (rheRoundsHalfToEven _ _).2 (.inl (by exact_mod_cast h))
  rw [chan, hr, clamp8_of_mem (by omega) (by omega), Int.toNat_natCast]

theorem clamp8_of_neg {n : Int} (h : n < 0) : clamp8 n = 0 := if_pos h

theorem clamp8_of_gt {n : Int} (h : 255 < n) : clamp8 n = 255 := by
  rw [clamp8, if_neg (by omega), if_pos h]

theorem clamp8_cast {n : Int} (h0 : 0 ≤ n) (h1 : n ≤ 255) : (clamp8 n : Int) = n := by
  rw [clamp8_of_mem h0 h1, Int.toNat_of_nonneg h0]

end Sys2Proof.Machine

/-! SUPPORT. The value of a binary32 pattern by its fields (R91). -/

namespace Sys2Proof.Machine

/-- The three fields of a pattern as one number. -/
theorem toNat_fields (sg : BitVec 1) (ex : BitVec 8) (fr : BitVec 23) :
    (sg ++ ex ++ fr : Word).toNat = sg.toNat * 2 ^ 31 + ex.toNat * 2 ^ 23 + fr.toNat := by
  have hex := ex.isLt
  have hfr := fr.isLt
  show (sg ++ ex ++ fr).toNat = _
  rw [BitVec.toNat_append, BitVec.toNat_append, ← Nat.shiftLeft_add_eq_or_of_lt hex,
    ← Nat.shiftLeft_add_eq_or_of_lt hfr, Nat.shiftLeft_eq, Nat.shiftLeft_eq]
  omega

theorem floatExponent_fields (sg : BitVec 1) (ex : BitVec 8) (fr : BitVec 23) :
    floatExponent (sg ++ ex ++ fr) = ex.toNat := by
  rw [floatExponent, BitVec.extractLsb'_toNat, toNat_fields, Nat.shiftRight_eq_div_pow]
  omega

theorem floatFraction_fields (sg : BitVec 1) (ex : BitVec 8) (fr : BitVec 23) :
    floatFraction (sg ++ ex ++ fr) = fr.toNat := by
  rw [floatFraction, BitVec.extractLsb'_toNat, toNat_fields, Nat.shiftRight_eq_div_pow]
  omega

theorem floatSign_fields (sg : BitVec 1) (ex : BitVec 8) (fr : BitVec 23) :
    floatSign (sg ++ ex ++ fr) = decide (sg.toNat = 1) := by
  have hsg := sg.isLt
  have hex := ex.isLt
  have hfr := fr.isLt
  rw [floatSign, BitVec.getLsbD, Nat.testBit_eq_decide_div_mod_eq, toNat_fields, decide_eq_decide]
  omega

/-- The value of a finite pattern, with the sign as a factor (R91). -/
theorem val_fields {sg : BitVec 1} {ex : BitVec 8} {fr : BitVec 23} (hex : ex.toNat ≠ 255) :
    val (sg ++ ex ++ fr) = some ((-1) ^ sg.toNat * floatMagnitude (sg ++ ex ++ fr)) := by
  rw [val, floatExponent_fields, if_neg hex, floatSign_fields]
  obtain hsg | hsg : sg.toNat = 0 ∨ sg.toNat = 1 := by have := sg.isLt; omega
  · simp [hsg]
  · simp [hsg]

/-- Settles O13, class by class. -/
theorem floatPatternsDenoteTheirValues : Obligations.FloatPatternsDenoteTheirValues := by
  intro sg ex fr
  refine ⟨fun h => ?_, fun h => ?_, fun h1 h254 => ?_⟩
  · rw [val, floatExponent_fields, if_pos h]
  · rw [val_fields (by omega), floatMagnitude, floatExponent_fields, if_pos h, floatFraction_fields, pow2_eq_zpow,
      mul_assoc]
  · rw [val_fields (by omega), floatMagnitude, floatExponent_fields, if_neg (by omega), floatFraction_fields,
      pow2_eq_zpow, mul_assoc]
    push_cast
    rfl

/-- A finite value is a significand below `2 ^ 24` times a power of two, the exponent no less than that of the
subnormals (R91). -/
theorem exists_significand {w : Word} {y : ℚ} (h : val w = some y) :
    ∃ m k : Int, |m| < 2 ^ 24 ∧ -126 ≤ k ∧ y = m * pow2 (k - 23) := by
  have hfr : floatFraction w < 2 ^ 23 := (w.extractLsb' 0 23).isLt
  have hmag : ∃ (m : Nat) (k : Int), m < 2 ^ 24 ∧ -126 ≤ k ∧ floatMagnitude w = m * pow2 (k - 23) := by
    unfold floatMagnitude
    split_ifs with hex
    · exact ⟨floatFraction w, -126, by omega, le_rfl, rfl⟩
    · refine ⟨2 ^ 23 + floatFraction w, (floatExponent w : Int) - 127, by omega, by omega, ?_⟩
      rw [sub_sub]
      rfl
  obtain ⟨m, k, hm, hk, hmag⟩ := hmag
  unfold val at h
  split_ifs at h with hex hsg
  · refine ⟨-m, k, ?_, hk, ?_⟩
    · rw [abs_neg, Nat.abs_cast]
      exact_mod_cast hm
    · rw [← Option.some.inj h, hmag]
      push_cast
      ring
  · refine ⟨m, k, ?_, hk, (Option.some.inj h).symm.trans hmag⟩
    rw [Nat.abs_cast]
    exact_mod_cast hm

end Sys2Proof.Machine

/-! SUPPORT. What `rnd32` writes: the significand and exponent it picks, as a pattern (R92). -/

namespace Sys2Proof.Machine

/-- The nonnegative pattern with exponent field `b` and fraction `f`. -/
def pattern (b f : Nat) : Word := 0#1 ++ BitVec.ofNat 8 b ++ BitVec.ofNat 23 f

section Pattern

variable {b f : Nat} (hf : f < 2 ^ 23)
include hf

theorem val_pattern_subnormal : val (pattern 0 f) = some ((f : ℚ) * pow2 (-149)) := by
  have hfr : (BitVec.ofNat 23 f).toNat = f := by rw [BitVec.toNat_ofNat, Nat.mod_eq_of_lt hf]
  obtain ⟨-, hsub, -⟩ := floatPatternsDenoteTheirValues 0#1 (BitVec.ofNat 8 0) (BitVec.ofNat 23 f)
  rw [pattern, hsub rfl, hfr, pow2_eq_zpow]
  simp

theorem toNat_pattern (hb : b ≤ 254) : (pattern b f).toNat = b * 2 ^ 23 + f := by
  rw [pattern, toNat_fields, BitVec.toNat_ofNat, BitVec.toNat_ofNat, BitVec.toNat_ofNat]
  omega

theorem val_pattern_normal (h1 : 1 ≤ b) (hb : b ≤ 254) :
    val (pattern b f) = some ((2 ^ 23 + f : ℚ) * pow2 ((b : Int) - 150)) := by
  have hfr : (BitVec.ofNat 23 f).toNat = f := by rw [BitVec.toNat_ofNat, Nat.mod_eq_of_lt hf]
  have hex : (BitVec.ofNat 8 b).toNat = b := by rw [BitVec.toNat_ofNat, Nat.mod_eq_of_lt (by omega)]
  obtain ⟨-, -, hnormal⟩ := floatPatternsDenoteTheirValues 0#1 (BitVec.ofNat 8 b) (BitVec.ofNat 23 f)
  rw [hex, hfr] at hnormal
  rw [pattern, hnormal h1 hb, pow2_eq_zpow]
  simp

theorem pattern_sign (hb : b ≤ 254) : (pattern b f).getLsbD 31 = false := by
  rw [BitVec.getLsbD, toNat_pattern hf hb, Nat.testBit_eq_decide_div_mod_eq, decide_eq_false_iff_not]
  omega

theorem pattern_lsb (hb : b ≤ 254) : (pattern b f).getLsbD 0 = decide (f % 2 = 1) := by
  rw [BitVec.getLsbD, toNat_pattern hf hb, Nat.testBit_eq_decide_div_mod_eq, decide_eq_decide]
  omega

/-- The two fields put together by shift and or, as R92 writes them. -/
theorem shift_or_eq_pattern (hb : b ≤ 254) :
    BitVec.ofInt 32 b <<< 23 ||| BitVec.ofInt 32 f = pattern b f := by
  apply BitVec.eq_of_toNat_eq
  have hbw : b <<< 23 % 2 ^ 32 = b <<< 23 := Nat.mod_eq_of_lt (by rw [Nat.shiftLeft_eq]; omega)
  rw [toNat_pattern hf hb, BitVec.toNat_or, BitVec.toNat_shiftLeft, BitVec.ofInt_natCast, BitVec.ofInt_natCast,
    BitVec.toNat_ofNat, BitVec.toNat_ofNat, Nat.mod_eq_of_lt (a := b) (by omega), Nat.mod_eq_of_lt (a := f) (by omega),
    hbw, ← Nat.shiftLeft_add_eq_or_of_lt hf, Nat.shiftLeft_eq]

end Pattern

/-! Powers of two, in the model's spelling. -/

theorem pow2_add (j k : Int) : pow2 (j + k) = pow2 j * pow2 k := by
  simp only [pow2_eq_zpow]
  exact zpow_add₀ two_ne_zero j k

theorem pow2_le_pow2 {j k : Int} : pow2 j ≤ pow2 k ↔ j ≤ k := by
  simp only [pow2_eq_zpow]
  exact zpow_le_zpow_iff_right₀ one_lt_two

theorem pow2_natCast_sub (a b : Nat) : pow2 ((a : Int) - b) = 2 ^ a / 2 ^ b := by
  rw [pow2_eq_zpow, zpow_sub₀ two_ne_zero, zpow_natCast, zpow_natCast]

/-- The integer `e` of R92. -/
theorem binaryExponent_spec {q : ℚ} (hq : 0 < q) :
    pow2 (binaryExponent q) ≤ q ∧ q < pow2 (binaryExponent q + 1) := by
  have hnum : q.num.toNat ≠ 0 := by have := Rat.num_pos.2 hq; omega
  have hqe : q = (q.num.toNat : ℚ) / q.den := by
    have hcast : ((q.num.toNat : Int) : ℚ) = q.num := by rw [Int.toNat_of_nonneg (Rat.num_pos.2 hq).le]
    rw [← Int.cast_natCast (R := ℚ) q.num.toNat, hcast, Rat.num_div_den]
  have hn0 : (2 : ℚ) ^ q.num.toNat.log2 ≤ q.num.toNat := by exact_mod_cast Nat.log2_self_le hnum
  have hn1 : (q.num.toNat : ℚ) < 2 ^ (q.num.toNat.log2 + 1) := by exact_mod_cast Nat.lt_log2_self
  have hd0 : (2 : ℚ) ^ q.den.log2 ≤ q.den := by exact_mod_cast Nat.log2_self_le q.den_nz
  have hd1 : (q.den : ℚ) < 2 ^ (q.den.log2 + 1) := by exact_mod_cast Nat.lt_log2_self
  have hdpos : (0 : ℚ) < q.den := by exact_mod_cast q.den_pos
  have hlow : pow2 ((q.num.toNat.log2 : Int) - q.den.log2 - 1) ≤ q := by
    rw [sub_sub, ← Nat.cast_succ, pow2_natCast_sub]
    exact (div_le_div₀ (Nat.cast_nonneg _) hn0 hdpos hd1.le).trans_eq hqe.symm
  have hhigh : q < pow2 ((q.num.toNat.log2 : Int) - q.den.log2 + 1) := by
    rw [sub_add_eq_add_sub, ← Nat.cast_succ, pow2_natCast_sub]
    exact hqe.trans_lt (div_lt_div₀ hn1 hd0 (by positivity) (by positivity))
  simp only [binaryExponent]
  split_ifs with h
  · exact ⟨h, hhigh⟩
  · exact ⟨hlow, by rw [sub_add_cancel]; exact not_le.1 h⟩

/-- The exponent `E` of R92. -/
def roundExponent (q : ℚ) : Int := max (binaryExponent q) (-126)

/-- What one unit of the significand is worth at the exponent `E` of R92. -/
def roundUnit (q : ℚ) : ℚ := pow2 (roundExponent q - 23)

/-- The significand `n` of R92. -/
def significand (q : ℚ) : Int := rhe (q / roundUnit q)

theorem rnd32_of_ne_zero {q : ℚ} (hq : q ≠ 0) :
    rnd32 q =
      if significand q = 2 ^ 24 then BitVec.ofInt 32 (roundExponent q + 1 + 127) <<< 23
      else if significand q < 2 ^ 23 then BitVec.ofInt 32 (significand q)
      else BitVec.ofInt 32 (roundExponent q + 127) <<< 23 ||| BitVec.ofInt 32 (significand q - 2 ^ 23) :=
  if_neg hq

theorem roundUnit_pos (q : ℚ) : 0 < roundUnit q := pow2_pos _

theorem le_roundExponent (q : ℚ) : -126 ≤ roundExponent q := le_max_right _ _

section RoundExponent

variable {q : ℚ} (hq : 0 < q)
include hq

theorem lt_pow2_roundExponent : q < pow2 (roundExponent q + 1) :=
  (binaryExponent_spec hq).2.trans_le (pow2_le_pow2.2 (by unfold roundExponent; omega))

theorem pow2_roundExponent_le (h : -126 < roundExponent q) : pow2 (roundExponent q) ≤ q := by
  have he : roundExponent q = binaryExponent q := by unfold roundExponent at h ⊢; omega
  rw [he]
  exact (binaryExponent_spec hq).1

theorem roundExponent_le {k : Int} (hk : -126 ≤ k) (hle : q ≤ pow2 k) : roundExponent q ≤ k := by
  by_contra hlt
  exact absurd (pow2_le_pow2.1 ((pow2_roundExponent_le hq (by omega)).trans hle)) hlt

end RoundExponent

/-- Rounding to an integer keeps the bounds that are integers. -/
theorem rhe_le {x : ℚ} {j : Int} (h : x ≤ j) : rhe x ≤ j := by
  have hlt : (rhe x : ℚ) < j + 1 := by linarith [(rhe_bounds x).2]
  exact Int.lt_add_one_iff.1 (by exact_mod_cast hlt)

theorem le_rhe {x : ℚ} {j : Int} (h : j ≤ x) : j ≤ rhe x := by
  have hlt : (j : ℚ) < rhe x + 1 := by linarith [(rhe_bounds x).1]
  exact Int.lt_add_one_iff.1 (by exact_mod_cast hlt)

theorem pow2_succ (k : Int) : pow2 (k + 1) = 2 * pow2 k := by
  have hval : pow2 1 = 2 := pow2_eq_zpow 1
  rw [pow2_add, hval, mul_comm]

/-- An exponent is 23 above that of its unit. -/
theorem pow2_eq_units (E : Int) : pow2 E = 2 ^ 23 * pow2 (E - 23) := by
  have hval : pow2 23 = 2 ^ 23 := pow2_eq_zpow 23
  rw [← hval, ← pow2_add, add_sub_cancel]

theorem pow2_roundExponent (q : ℚ) : pow2 (roundExponent q) = 2 ^ 23 * roundUnit q := pow2_eq_units _

/-- At the largest exponent that the bound leaves, nothing is carried out of the significand. -/
theorem significand_le_of_le {q : ℚ} (h : q ≤ pow2 (roundExponent q)) : significand q ≤ 2 ^ 23 := by
  refine rhe_le ?_
  rw [div_le_iff₀ (roundUnit_pos q)]
  push_cast
  linarith [pow2_roundExponent q]

section Significand

variable {q : ℚ} (hq : 0 < q)
include hq

theorem significand_nonneg : 0 ≤ significand q :=
  le_rhe (by rw [Int.cast_zero]; exact div_nonneg hq.le (roundUnit_pos q).le)

theorem significand_le : significand q ≤ 2 ^ 24 := by
  refine rhe_le ?_
  rw [div_le_iff₀ (roundUnit_pos q)]
  push_cast
  linarith [lt_pow2_roundExponent hq, pow2_succ (roundExponent q), pow2_roundExponent q]

theorem le_significand (h : -126 < roundExponent q) : 2 ^ 23 ≤ significand q := by
  refine le_rhe ?_
  rw [le_div_iff₀ (roundUnit_pos q)]
  push_cast
  linarith [pow2_roundExponent_le hq h, pow2_roundExponent q]

/-- The three shapes of a result of `rnd32`: carried to the next exponent, subnormal, normal (R92). -/
theorem rnd32_cases (hle : q ≤ 2 ^ 127) :
    ∃ b f : Nat, b ≤ 254 ∧ f < 2 ^ 23 ∧ rnd32 q = pattern b f ∧
      ((significand q = 2 ^ 24 ∧ f = 0 ∧ (b : Int) = roundExponent q + 128) ∨
       (significand q = f ∧ b = 0 ∧ roundExponent q = -126) ∨
       (significand q = 2 ^ 23 + f ∧ 1 ≤ b ∧ (b : Int) = roundExponent q + 127)) := by
  have hpow : q ≤ pow2 127 := hle.trans_eq (by rw [pow2_eq_zpow]; norm_num)
  have hE := le_roundExponent q
  have hE' := roundExponent_le hq (by norm_num) hpow
  have hn := significand_nonneg hq
  have hn' := significand_le hq
  rw [rnd32_of_ne_zero hq.ne']
  split_ifs with hcarry hsub
  · have hlt : roundExponent q ≠ 127 := fun h => by
      have := significand_le_of_le (h ▸ hpow)
      omega
    obtain ⟨b, hb⟩ := Int.eq_ofNat_of_zero_le (a := roundExponent q + 1 + 127) (by omega)
    refine ⟨b, 0, by omega, by norm_num, ?_, .inl ⟨hcarry, rfl, by omega⟩⟩
    rw [hb, ← shift_or_eq_pattern (by norm_num) (by omega)]
    simp
  · obtain ⟨f, hf⟩ := Int.eq_ofNat_of_zero_le hn
    have hsubE : roundExponent q = -126 := by
      by_contra h
      have := le_significand hq (by omega)
      omega
    refine ⟨0, f, by omega, by omega, ?_, .inr (.inl ⟨hf, rfl, hsubE⟩)⟩
    rw [hf, ← shift_or_eq_pattern (by omega) (by omega)]
    simp
  · obtain ⟨b, hb⟩ := Int.eq_ofNat_of_zero_le (a := roundExponent q + 127) (by omega)
    obtain ⟨f, hf⟩ := Int.eq_ofNat_of_zero_le (a := significand q - 2 ^ 23) (by omega)
    refine ⟨b, f, by omega, by omega, ?_, .inr (.inr ⟨by omega, by omega, hb.symm⟩)⟩
    rw [hb, hf, shift_or_eq_pattern (by omega) (by omega)]

variable (hle : q ≤ 2 ^ 127)
include hle

theorem rnd32_sign : (rnd32 q).getLsbD 31 = false := by
  obtain ⟨b, f, hb, hf, h, -⟩ := rnd32_cases hq hle
  rw [h, pattern_sign hf hb]

/-- The fraction is even exactly where the significand is. -/
theorem rnd32_lsb : (rnd32 q).getLsbD 0 = decide (significand q % 2 = 1) := by
  obtain ⟨b, f, hb, hf, h, hn⟩ := rnd32_cases hq hle
  rw [h, pattern_lsb hf hb, decide_eq_decide]
  omega

/-- `rnd32 q` denotes the significand in its units. -/
theorem val_rnd32 : val (rnd32 q) = some (significand q * roundUnit q) := by
  obtain ⟨b, f, hb, hf, h, ⟨hn, rfl, hE⟩ | ⟨hn, rfl, hE⟩ | ⟨hn, h1, hE⟩⟩ := rnd32_cases hq hle
  · have hb1 : 1 ≤ b := by have := le_roundExponent q; omega
    have hunit : pow2 ((b : Int) - 150) = 2 * roundUnit q := by
      rw [roundUnit, ← pow2_succ, hE]
      ring_nf
    rw [h, val_pattern_normal hf hb1 hb, hn, hunit]
    push_cast
    ring_nf
  · have hunit : roundUnit q = pow2 (-149) := by rw [roundUnit, hE]; rfl
    rw [h, val_pattern_subnormal hf, hn, hunit, Int.cast_natCast]
  · have hunit : roundUnit q = pow2 ((b : Int) - 150) := by rw [roundUnit, hE]; ring_nf
    rw [h, val_pattern_normal hf h1 hb, hn, hunit]
    push_cast
    rfl

end Significand

end Sys2Proof.Machine

/-! SUPPORT. `rnd32` is nearest (R92), and what follows for rationals in `[0, 1]` (R103). -/

namespace Sys2Proof.Machine

/-- A distance from `q` is so many units as the distance from `q` in units. -/
theorem abs_units_sub (q : ℚ) (j : Int) :
    |j * roundUnit q - q| = |j - q / roundUnit q| * roundUnit q := by
  have hu := roundUnit_pos q
  nth_rw 3 [← abs_of_pos hu]
  rw [← abs_mul, sub_mul, div_mul_cancel₀ _ hu.ne']

/-- The significand is off by at most half a unit. -/
theorem significand_error (q : ℚ) :
    |significand q * roundUnit q - q| ≤ 1 / 2 * roundUnit q := by
  rw [abs_units_sub]
  refine mul_le_mul_of_nonneg_right (abs_le.2 ?_) (roundUnit_pos q).le
  have h := rhe_bounds (q / roundUnit q)
  unfold significand
  constructor <;> linarith

/-- No multiple of the unit is nearer to `q` than the significand, and another is as near only at a tie. -/
theorem significand_nearest (q : ℚ) (j : Int) :
    |significand q * roundUnit q - q| ≤ |j * roundUnit q - q| ∧
    (|significand q * roundUnit q - q| = |j * roundUnit q - q| → j = significand q ∨ significand q % 2 = 0) := by
  have hu := roundUnit_pos q
  obtain ⟨hle, heq⟩ := rhe_nearest_int (q / roundUnit q) j
  rw [abs_units_sub, abs_units_sub]
  exact ⟨mul_le_mul_of_nonneg_right hle hu.le, fun h => heq (mul_right_cancel₀ hu.ne' h)⟩

/-- Every finite value is a multiple of the unit at `E`, or below `2 ^ E`. -/
theorem multiple_or_lt {w : Word} {y : ℚ} (h : val w = some y) (E : Int) :
    (∃ j : Int, y = j * pow2 (E - 23)) ∨ (y < pow2 E ∧ -126 < E) := by
  obtain ⟨m, k, hm, hk, rfl⟩ := exists_significand h
  obtain hE | hE := le_or_gt E k
  · obtain ⟨i, hi⟩ := Int.eq_ofNat_of_zero_le (sub_nonneg.2 hE)
    refine .inl ⟨m * 2 ^ i, ?_⟩
    rw [show k - 23 = (i : Int) + (E - 23) by omega, pow2_add, pow2_eq_zpow i, zpow_natCast]
    push_cast
    ring
  · refine .inr ⟨?_, by omega⟩
    have hm' : (m : ℚ) < 2 ^ 24 := by exact_mod_cast (abs_lt.1 hm).2
    calc (m : ℚ) * pow2 (k - 23) < 2 ^ 24 * pow2 (k - 23) := mul_lt_mul_of_pos_right hm' (pow2_pos _)
      _ = pow2 (k + 1) := by rw [pow2_succ, pow2_eq_units k]; ring
      _ ≤ pow2 E := pow2_le_pow2.2 (by omega)

/-- No finite value is nearer to `q > 0` than the significand in its units; another is as near only at a tie. -/
theorem significand_nearest_val {q : ℚ} (hq : 0 < q) {w : Word} {y : ℚ} (h : val w = some y) :
    |significand q * roundUnit q - q| ≤ |y - q| ∧
    (|significand q * roundUnit q - q| = |y - q| → y = significand q * roundUnit q ∨ significand q % 2 = 0) := by
  obtain ⟨j, rfl : y = j * roundUnit q⟩ | ⟨hlt, hE⟩ := multiple_or_lt h (roundExponent q)
  · obtain ⟨hle, heq⟩ := significand_nearest q j
    exact ⟨hle, fun h => (heq h).imp_left fun hj => by rw [hj]⟩
  · have hpow := pow2_roundExponent_le hq hE
    have hnear : |significand q * roundUnit q - q| ≤ |pow2 (roundExponent q) - q| := by
      obtain ⟨hle, -⟩ := significand_nearest q (2 ^ 23)
      rw [pow2_roundExponent q]
      exact_mod_cast hle
    have hstrict : |pow2 (roundExponent q) - q| < |y - q| := by
      rw [abs_of_nonpos (by linarith), abs_of_neg (by linarith)]
      linarith
    exact ⟨by linarith, fun heq => by linarith⟩

theorem rnd32_zero : rnd32 0 = 0 := if_pos rfl

theorem val_zero : val 0 = some 0 := by
  rw [val, if_neg (by decide), if_neg (by decide), floatMagnitude, if_pos (by decide),
    show floatFraction 0 = 0 by decide, Nat.cast_zero, zero_mul]

/-- Settles O15: the significand is nearest among the multiples of its unit, and a finite value that is no multiple of
it lies below `2 ^ E`. -/
theorem rnd32IsNearestTiesToEven : Obligations.Rnd32IsNearestTiesToEven := by
  intro q h0 hle
  obtain rfl | hq := h0.eq_or_lt
  · rw [rnd32_zero]
    exact ⟨rfl, 0, val_zero, fun w y _ => ⟨by simp, fun _ => .inr rfl⟩⟩
  · refine ⟨rnd32_sign hq hle, _, val_rnd32 hq hle, fun w y hy => ?_⟩
    obtain ⟨hnear, htie⟩ := significand_nearest_val hq hy
    refine ⟨hnear, fun h => (htie h).imp_right fun heven => ?_⟩
    rw [rnd32_lsb hq hle, decide_eq_false_iff_not]
    omega

/-! Rationals in `[0, 1]`. -/

theorem val_one : val 0x3F800000 = some 1 := by
  have h := val_pattern_normal (b := 127) (f := 0) (by norm_num) (by norm_num) (by norm_num)
  rw [show pattern 127 0 = 0x3F800000 by decide] at h
  rw [h, pow2_eq_zpow]
  norm_num

/-- Rounding a rational in `[0, 1]` moves it by at most `2 ^ -24` and leaves it there. -/
theorem exists_val_rnd32 {q : ℚ} (h0 : 0 ≤ q) (h1 : q ≤ 1) :
    ∃ x, val (rnd32 q) = some x ∧ 0 ≤ x ∧ x ≤ 1 ∧ |x - q| ≤ 1 / 2 ^ 24 := by
  obtain ⟨-, x, hx, hnear⟩ := rnd32IsNearestTiesToEven q h0 (h1.trans (by norm_num))
  have hzero := (hnear _ _ val_zero).1
  have hone := (hnear _ _ val_one).1
  refine ⟨x, hx, ?_, ?_, ?_⟩
  · by_contra hneg
    rw [abs_of_neg (by linarith), zero_sub, abs_neg, abs_of_nonneg h0] at hzero
    linarith
  · by_contra hgt
    rw [abs_of_pos (by linarith), abs_of_nonneg (by linarith)] at hone
    linarith
  · obtain rfl | hq := h0.eq_or_lt
    · rw [rnd32_zero, val_zero] at hx
      rw [← Option.some.inj hx]
      norm_num
    · have hE := roundExponent_le hq (k := 0) (by norm_num) h1
      have hunit : roundUnit q ≤ pow2 (-23) := pow2_le_pow2.2 (by omega)
      rw [val_rnd32 hq (h1.trans (by norm_num))] at hx
      rw [← Option.some.inj hx]
      have hval : pow2 (-23) = 1 / 2 ^ 23 := by rw [pow2_eq_zpow]; norm_num
      linarith [significand_error q]

end Sys2Proof.Machine

/-! SUPPORT. The hue of a colour: the line of a maximal channel, and its range (R96). -/

namespace Sys2Proof.Machine

/-- Adding 6 to a negative line is what `mod 6` does to a quotient in `[-1, 1]` (R96). -/
theorem ratMod_six {x : ℚ} (h0 : -1 ≤ x) (h1 : x ≤ 1) : ratMod x 6 = x + if x < 0 then 6 else 0 := by
  unfold ratMod
  split_ifs with hneg
  · rw [show ⌊x / 6⌋ = -1 by rw [Int.floor_eq_iff]; push_cast; constructor <;> linarith]
    push_cast
    ring
  · rw [show ⌊x / 6⌋ = 0 by rw [Int.floor_eq_iff]; push_cast; constructor <;> linarith]
    push_cast
    ring

section Hue

variable {r g b mx mn : Nat} (hmx : mx = max r (max g b)) (hmn : mn = min r (min g b))
include hmx hmn

/-- R96 over the named maximum and minimum. -/
theorem rgb2hsvQ_eq :
    rgb2hsvQ ⟨r, g, b⟩ =
      { h :=
          if (mx : ℚ) - mn = 0 then 0
          else if mx = r then ratMod (((g : ℚ) - b) / (mx - mn)) 6 / 6
          else if mx = g then (((b : ℚ) - r) / (mx - mn) + 2) / 6
          else (((r : ℚ) - g) / (mx - mn) + 4) / 6
        s := if mx = 0 then 0 else ((mx : ℚ) - mn) / mx
        v := (mx : ℚ) / 255 } := by
  subst hmx hmn
  rw [← max_assoc, ← min_assoc]
  rfl

theorem rgb2hsvQ_v : (rgb2hsvQ ⟨r, g, b⟩).v = mx / 255 := by
  rw [rgb2hsvQ_eq hmx hmn]

theorem rgb2hsvQ_s_of_black (h : mx = 0) : (rgb2hsvQ ⟨r, g, b⟩).s = 0 := by
  rw [rgb2hsvQ_eq hmx hmn]
  exact if_pos h

theorem rgb2hsvQ_s (h : mx ≠ 0) : (rgb2hsvQ ⟨r, g, b⟩).s = ((mx : ℚ) - mn) / mx := by
  rw [rgb2hsvQ_eq hmx hmn]
  exact if_neg h

/-- A grey has hue 0. -/
theorem hue_of_grey (h : mx = mn) : (rgb2hsvQ ⟨r, g, b⟩).h = 0 := by
  rw [rgb2hsvQ_eq hmx hmn]
  exact if_pos (by rw [h, sub_self])

variable (hne : mx ≠ mn)
include hne

theorem spread_pos : (0 : ℚ) < mx - mn := by
  have hlt : (mn : ℚ) < mx := by exact_mod_cast (show mn < mx by omega)
  linarith

/-- A difference of two channels is at most the spread. -/
theorem quotient_mem {x y : Nat} (hx : mn ≤ x ∧ x ≤ mx) (hy : mn ≤ y ∧ y ≤ mx) :
    -1 ≤ ((x : ℚ) - y) / (mx - mn) ∧ ((x : ℚ) - y) / (mx - mn) ≤ 1 := by
  have hd := spread_pos hmx hmn hne
  rw [le_div_iff₀ hd, div_le_iff₀ hd]
  obtain ⟨hx0, hx1⟩ : (mn : ℚ) ≤ x ∧ (x : ℚ) ≤ mx := by exact_mod_cast hx
  obtain ⟨hy0, hy1⟩ : (mn : ℚ) ≤ y ∧ (y : ℚ) ≤ mx := by exact_mod_cast hy
  constructor <;> linarith

/-- The line of red (R96). -/
theorem hue_red (h : mx = r) :
    6 * (rgb2hsvQ ⟨r, g, b⟩).h = ((g : ℚ) - b) / (mx - mn) + if g < b then 6 else 0 := by
  have hd := spread_pos hmx hmn hne
  obtain ⟨h0, h1⟩ := quotient_mem hmx hmn hne (x := g) (y := b) (by omega) (by omega)
  have hsign : ((g : ℚ) - b) / (mx - mn) < 0 ↔ g < b := by
    rw [div_lt_iff₀ hd, zero_mul, sub_neg]
    exact Nat.cast_lt
  rw [rgb2hsvQ_eq hmx hmn, if_neg hd.ne', if_pos h, ratMod_six h0 h1, if_congr hsign rfl rfl]
  ring

/-- The line of green (R96); where red is maximal too it meets the line of red. -/
theorem hue_green (h : mx = g) : 6 * (rgb2hsvQ ⟨r, g, b⟩).h = ((b : ℚ) - r) / (mx - mn) + 2 := by
  have hd := spread_pos hmx hmn hne
  by_cases hr : mx = r
  · obtain rfl : mn = b := by omega
    rw [hue_red hmx hmn hne hr, if_neg (by omega), ← h, ← hr, div_self hd.ne', ← neg_sub, neg_div, div_self hd.ne']
    norm_num
  · rw [rgb2hsvQ_eq hmx hmn, if_neg hd.ne', if_neg hr, if_pos h]
    ring

/-- The line of blue (R96); where another channel is maximal too it meets that channel's line. -/
theorem hue_blue (h : mx = b) : 6 * (rgb2hsvQ ⟨r, g, b⟩).h = ((r : ℚ) - g) / (mx - mn) + 4 := by
  have hd := spread_pos hmx hmn hne
  by_cases hr : mx = r
  · obtain rfl : mn = g := by omega
    rw [hue_red hmx hmn hne hr, if_pos (by omega), ← h, ← hr, div_self hd.ne', ← neg_sub, neg_div, div_self hd.ne']
    norm_num
  · by_cases hg : mx = g
    · obtain rfl : mn = r := by omega
      rw [hue_green hmx hmn hne hg, ← h, ← hg, div_self hd.ne', ← neg_sub, neg_div, div_self hd.ne']
      norm_num
    · rw [rgb2hsvQ_eq hmx hmn, if_neg hd.ne', if_neg hr, if_neg hg]
      ring

/-- The hue of a colour that is no grey: nearest to a whole turn where red leads and blue exceeds green by one. -/
theorem hue_mem_of_ne (hle : mx ≤ 255) :
    0 ≤ (rgb2hsvQ ⟨r, g, b⟩).h ∧ (rgb2hsvQ ⟨r, g, b⟩).h ≤ 1529 / 1530 := by
  have hd := spread_pos hmx hmn hne
  have hquot := fun x y => quotient_mem hmx hmn hne (x := x) (y := y)
  obtain h | h | h : mx = r ∨ mx = g ∨ mx = b := by omega
  · have hline := hue_red hmx hmn hne h
    have hq := hquot g b (by omega) (by omega)
    split_ifs at hline with hgb
    · have hstep : ((g : ℚ) - b) / (mx - mn) ≤ -1 / 255 := by
        have h1 : (g : ℚ) + 1 ≤ b := by exact_mod_cast hgb
        have h2 : (mx : ℚ) ≤ 255 := by exact_mod_cast hle
        rw [div_le_iff₀ hd]
        linarith [(Nat.cast_nonneg mn : (0 : ℚ) ≤ mn)]
      constructor <;> linarith
    · have hnonneg : 0 ≤ ((g : ℚ) - b) / (mx - mn) :=
        div_nonneg (sub_nonneg.2 (by exact_mod_cast not_lt.1 hgb)) hd.le
      constructor <;> linarith
  · have hline := hue_green hmx hmn hne h
    have hq := hquot b r (by omega) (by omega)
    constructor <;> linarith
  · have hline := hue_blue hmx hmn hne h
    have hq := hquot r g (by omega) (by omega)
    constructor <;> linarith

end Hue

section Ranges

variable {r g b : Nat} (hr : r ≤ 255) (hg : g ≤ 255) (hb : b ≤ 255)
include hr hg hb

/-- The range of the hue (R103). -/
theorem hue_mem : 0 ≤ (rgb2hsvQ ⟨r, g, b⟩).h ∧ (rgb2hsvQ ⟨r, g, b⟩).h ≤ 1529 / 1530 := by
  by_cases h : max r (max g b) = min r (min g b)
  · rw [hue_of_grey rfl rfl h]
    norm_num
  · exact hue_mem_of_ne rfl rfl h (by omega)

theorem value_mem : 0 ≤ (rgb2hsvQ ⟨r, g, b⟩).v ∧ (rgb2hsvQ ⟨r, g, b⟩).v ≤ 1 := by
  rw [rgb2hsvQ_v rfl rfl]
  have hle : ((max r (max g b) : Nat) : ℚ) ≤ 255 := by exact_mod_cast (show max r (max g b) ≤ 255 by omega)
  exact ⟨by positivity, by rw [div_le_one (by norm_num)]; exact hle⟩

omit hr hg hb in
theorem saturation_mem : 0 ≤ (rgb2hsvQ ⟨r, g, b⟩).s ∧ (rgb2hsvQ ⟨r, g, b⟩).s ≤ 1 := by
  by_cases h : max r (max g b) = 0
  · rw [rgb2hsvQ_s_of_black rfl rfl h]
    norm_num
  · rw [rgb2hsvQ_s rfl rfl h]
    have hpos : (0 : ℚ) < (max r (max g b) : Nat) := by exact_mod_cast Nat.pos_of_ne_zero h
    have hle : ((min r (min g b) : Nat) : ℚ) ≤ (max r (max g b) : Nat) := by
      exact_mod_cast (show min r (min g b) ≤ max r (max g b) by omega)
    rw [div_le_one hpos]
    exact ⟨div_nonneg (by linarith) hpos.le, by linarith [(Nat.cast_nonneg (min r (min g b)) : (0 : ℚ) ≤ _)]⟩

end Ranges

/-- Settles O16: the lines of the maximal channels, and the hue's range. -/
theorem rgbToHsvFollowsTheHueBranches : Obligations.RgbToHsvFollowsTheHueBranches := by
  intro r g b mx mn hr hg hb hmx hmn
  obtain ⟨h0, h1⟩ := hue_mem hr hg hb
  exact ⟨_, _, _, rfl, h0, h1.trans_lt (by norm_num), rgb2hsvQ_v hmx hmn, rgb2hsvQ_s_of_black hmx hmn,
    rgb2hsvQ_s hmx hmn, hue_of_grey hmx hmn, hue_red hmx hmn, hue_green hmx hmn, hue_blue hmx hmn⟩

/-- Settles O18: each shared maximum by the line of one of its channels. -/
theorem sharedMaximumFixesTheHue : Obligations.SharedMaximumFixesTheHue := by
  intro a b ha hba
  have hd : ((a : ℚ) - b) / (a - b) = 1 := div_self (sub_ne_zero.2 (by exact_mod_cast hba.ne'))
  refine ⟨?_, ?_, ?_, hue_of_grey (mx := a) (mn := a) (by omega) (by omega) rfl⟩
  · have h := hue_red (r := a) (g := a) (b := b) (mx := a) (mn := b) (by omega) (by omega) hba.ne' rfl
    rw [if_neg hba.not_gt, hd] at h
    linarith
  · have h := hue_blue (r := a) (g := b) (b := a) (mx := a) (mn := b) (by omega) (by omega) hba.ne' rfl
    rw [hd] at h
    linarith
  · have h := hue_green (r := b) (g := a) (b := a) (mx := a) (mn := b) (by omega) (by omega) hba.ne' rfl
    rw [hd] at h
    linarith

/-! Where saturation and value are 1, and the written patterns (R103). -/

theorem saturation_eq_one_iff {r g b : Nat} :
    (rgb2hsvQ ⟨r, g, b⟩).s = 1 ↔ min r (min g b) = 0 ∧ 0 < max r (max g b) := by
  by_cases h : max r (max g b) = 0
  · rw [rgb2hsvQ_s_of_black rfl rfl h]
    exact ⟨fun h01 => absurd h01 zero_ne_one, fun ⟨_, hpos⟩ => absurd h hpos.ne'⟩
  · rw [rgb2hsvQ_s rfl rfl h, div_eq_one_iff_eq (by exact_mod_cast h), sub_eq_self, Nat.cast_eq_zero]
    exact ⟨fun hmn => ⟨hmn, Nat.pos_of_ne_zero h⟩, And.left⟩

theorem value_eq_one_iff {r g b : Nat} : (rgb2hsvQ ⟨r, g, b⟩).v = 1 ↔ max r (max g b) = 255 := by
  rw [rgb2hsvQ_v rfl rfl, div_eq_one_iff_eq (by norm_num)]
  norm_cast

/-- A hue is so far below 1 that its pattern is too. -/
theorem exists_val_rnd32_hue {h : ℚ} (h0 : 0 ≤ h) (h1 : h ≤ 1529 / 1530) :
    ∃ x, val (rnd32 h) = some x ∧ 0 ≤ x ∧ x < 1 ∧ |x - h| ≤ 1 / 2 ^ 24 := by
  obtain ⟨x, hx, hx0, -, herr⟩ := exists_val_rnd32 h0 (h1.trans (by norm_num))
  refine ⟨x, hx, hx0, ?_, herr⟩
  have := (abs_le.1 herr).2
  linarith

/-- Settles O17: the ranges of the exact results, and rounding keeps them. -/
theorem hsvResultsStayInRange : Obligations.HsvResultsStayInRange := by
  refine ⟨by decide +kernel, fun q h0 h1 => ?_, fun r g b hr hg hb => ?_⟩
  · obtain ⟨x, hx, hx0, hx1, -⟩ := exists_val_rnd32 h0 h1
    exact ⟨x, hx, hx0, hx1⟩
  · obtain ⟨hh0, hh1⟩ := hue_mem hr hg hb
    obtain ⟨hs0, hs1⟩ := saturation_mem (r := r) (g := g) (b := b)
    obtain ⟨hv0, hv1⟩ := value_mem hr hg hb
    obtain ⟨x, hx, hx0, hx1, -⟩ := exists_val_rnd32_hue hh0 hh1
    obtain ⟨y, hy, hy0, hy1, -⟩ := exists_val_rnd32 hs0 hs1
    obtain ⟨z, hz, hz0, hz1, -⟩ := exists_val_rnd32 hv0 hv1
    exact ⟨_, _, _, rfl, hh0, hh1, hs0, hs1, hv0, hv1, saturation_eq_one_iff, value_eq_one_iff, ⟨x, hx, hx0, hx1⟩,
      ⟨y, hy, hy0, hy1⟩, ⟨z, hz, hz0, hz1⟩⟩

end Sys2Proof.Machine

/-! SUPPORT. HSV to RGB by its sectors (R97), and without sectors: each channel of a hue in `[0, 1)` is the value less a
dip that depends on the hue continuously (R107). -/

namespace Sys2Proof.Machine

/-- Row `i` of the table of R97, at fraction `f`. -/
def sectorRow (i : Nat) (f s v : ℚ) : Colour :=
  match i with
  | 0 => ⟨chan v, chan (v * (1 - (1 - f) * s)), chan (v * (1 - s))⟩
  | 1 => ⟨chan (v * (1 - f * s)), chan v, chan (v * (1 - s))⟩
  | 2 => ⟨chan (v * (1 - s)), chan v, chan (v * (1 - (1 - f) * s))⟩
  | 3 => ⟨chan (v * (1 - s)), chan (v * (1 - f * s)), chan v⟩
  | 4 => ⟨chan (v * (1 - (1 - f) * s)), chan (v * (1 - s)), chan v⟩
  | _ => ⟨chan v, chan (v * (1 - s)), chan (v * (1 - f * s))⟩

/-- A hue in sector `i` at fraction `f`, any number of whole turns away, takes row `i` (R97). -/
theorem hsv2rgbQ_sector {i : Nat} (hi : i < 6) {n : Int} {h f : ℚ} (hf0 : 0 ≤ f) (hf1 : f < 1)
    (hh : 6 * h = 6 * n + i + f) (s v : ℚ) : hsv2rgbQ h s v = sectorRow i f s v := by
  have hfloor : ⌊6 * h⌋ = 6 * n + i := by
    rw [Int.floor_eq_iff]
    push_cast
    constructor <;> linarith
  have hfract : 6 * h - ((6 * n + i : Int) : ℚ) = f := by
    push_cast
    linarith
  have hrow : ((6 * n + i) % 6).toNat = i := by omega
  simp only [hsv2rgbQ, hfloor, hfract, hrow]
  interval_cases i <;> rfl

/-- Settles O19: the clamp's three ranges, and the six rows. -/
theorem hsvToRgbFollowsTheSectorTable : Obligations.HsvToRgbFollowsTheSectorTable := by
  refine ⟨fun n => ⟨clamp8_of_neg, clamp8_of_gt, clamp8_cast⟩, fun x => ⟨clamp8_of_neg, clamp8_of_gt, clamp8_cast⟩,
    hsv2rgbQ_le, ?_⟩
  rintro n f s v p q t hf0 hf1 rfl rfl rfl
  have hrow := fun (i : Nat) (hi : i < 6) (h : ℚ) (hh : 6 * h = 6 * n + i + f) =>
    hsv2rgbQ_sector hi hf0 hf1 hh s v
  exact ⟨hrow 0 (by norm_num) _ (by push_cast; ring), hrow 1 (by norm_num) _ (by push_cast; ring),
    hrow 2 (by norm_num) _ (by push_cast; ring), hrow 3 (by norm_num) _ (by push_cast; ring),
    hrow 4 (by norm_num) _ (by push_cast; ring), hrow 5 (by norm_num) _ (by push_cast; ring)⟩

/-! The dips. -/

/-- A rational limited to `[0, 1]`. -/
def unitClamp (t : ℚ) : ℚ := max 0 (min 1 t)

/-- How far red is below the value at `x` sixths of a turn, as a part of the saturation: nothing within one sixth of
red, all beyond two sixths. -/
def redDip (x : ℚ) : ℚ := unitClamp (2 - |x - 3|)

/-- As `redDip`, around green. -/
def greenDip (x : ℚ) : ℚ := unitClamp (|x - 2| - 1)

/-- As `redDip`, around blue. -/
def blueDip (x : ℚ) : ℚ := unitClamp (|x - 4| - 1)

/-- The component that dips by `w` from the value `v` at saturation `s`. -/
def component (s v w : ℚ) : ℚ := v * (1 - w * s)

/-- The dips in the six sectors, at fraction `f`: the table of R97 read by channels. -/
theorem dips_of_sector {f : ℚ} (hf0 : 0 ≤ f) (hf1 : f ≤ 1) :
    (redDip (0 + f) = 0 ∧ greenDip (0 + f) = 1 - f ∧ blueDip (0 + f) = 1) ∧
    (redDip (1 + f) = f ∧ greenDip (1 + f) = 0 ∧ blueDip (1 + f) = 1) ∧
    (redDip (2 + f) = 1 ∧ greenDip (2 + f) = 0 ∧ blueDip (2 + f) = 1 - f) ∧
    (redDip (3 + f) = 1 ∧ greenDip (3 + f) = f ∧ blueDip (3 + f) = 0) ∧
    (redDip (4 + f) = 1 - f ∧ greenDip (4 + f) = 1 ∧ blueDip (4 + f) = 0) ∧
    (redDip (5 + f) = 0 ∧ greenDip (5 + f) = 1 ∧ blueDip (5 + f) = f) := by
  unfold redDip greenDip blueDip unitClamp
  refine ⟨⟨?_, ?_, ?_⟩, ⟨?_, ?_, ?_⟩, ⟨?_, ?_, ?_⟩, ⟨?_, ?_, ?_⟩, ⟨?_, ?_, ?_⟩, ⟨?_, ?_, ?_⟩⟩ <;> grind

/-- The row of a sector, by the dips. -/
theorem sectorRow_eq_dips {i : Nat} (hi : i < 6) {f : ℚ} (hf0 : 0 ≤ f) (hf1 : f ≤ 1) (s v : ℚ) :
    sectorRow i f s v =
      ⟨chan (component s v (redDip (i + f))), chan (component s v (greenDip (i + f))),
        chan (component s v (blueDip (i + f)))⟩ := by
  have hfull : component s v 0 = v := by rw [component]; ring
  have hleast : component s v 1 = v * (1 - s) := by rw [component]; ring
  obtain ⟨⟨r0, g0, b0⟩, ⟨r1, g1, b1⟩, ⟨r2, g2, b2⟩, ⟨r3, g3, b3⟩, ⟨r4, g4, b4⟩, ⟨r5, g5, b5⟩⟩ :=
    dips_of_sector hf0 hf1
  interval_cases i
  · rw [Nat.cast_zero, r0, g0, b0, hfull, hleast]; rfl
  · rw [Nat.cast_one, r1, g1, b1, hfull, hleast]; rfl
  · rw [Nat.cast_ofNat, r2, g2, b2, hfull, hleast]; rfl
  · rw [Nat.cast_ofNat, r3, g3, b3, hfull, hleast]; rfl
  · rw [Nat.cast_ofNat, r4, g4, b4, hfull, hleast]; rfl
  · rw [Nat.cast_ofNat, r5, g5, b5, hfull, hleast]; rfl

/-- The conversion without sectors, for a hue in `[0, 1)`. -/
theorem hsv2rgbQ_eq_dips {h : ℚ} (h0 : 0 ≤ h) (h1 : h < 1) (s v : ℚ) :
    hsv2rgbQ h s v =
      ⟨chan (component s v (redDip (6 * h))), chan (component s v (greenDip (6 * h))),
        chan (component s v (blueDip (6 * h)))⟩ := by
  have hfloor := Nat.floor_le (a := 6 * h) (by linarith)
  have hlt := Nat.lt_floor_add_one (6 * h)
  have hi : ⌊6 * h⌋₊ < 6 := (Nat.floor_lt' (by norm_num)).2 (by push_cast; linarith)
  rw [hsv2rgbQ_sector hi (n := 0) (f := 6 * h - ⌊6 * h⌋₊) (by linarith) (by linarith) (by push_cast; ring),
    sectorRow_eq_dips hi (by linarith) (by linarith), add_sub_cancel]

/-! The hue of a colour makes each channel dip to its own value. -/

section Colour

variable {r g b mx mn : Nat} (hmx : mx = max r (max g b)) (hmn : mn = min r (min g b))
include hmx hmn

/-- A line's quotient: the difference in units of the spread, of which a negative one is a whole unit short. -/
theorem quotient_cases (hne : mx ≠ mn) {x y : Nat} (hx : mn ≤ x ∧ x ≤ mx) (hy : mn ≤ y ∧ y ≤ mx) :
    ∃ q, ((x : ℚ) - y) / (mx - mn) = q ∧ ((mx : ℚ) - mn) * q = x - y ∧
      ((x < y ∧ 0 ≤ 1 + q ∧ 1 + q ≤ 1) ∨ (y ≤ x ∧ 0 ≤ q ∧ q ≤ 1)) := by
  have hd := spread_pos hmx hmn hne
  obtain ⟨h0, h1⟩ := quotient_mem hmx hmn hne hx hy
  refine ⟨_, rfl, mul_div_cancel₀ _ hd.ne', ?_⟩
  obtain hlt | hle := lt_or_ge x y
  · have hneg : ((x : ℚ) - y) / (mx - mn) ≤ 0 :=
      div_nonpos_of_nonpos_of_nonneg (sub_nonpos.2 (by exact_mod_cast hlt.le)) hd.le
    exact .inl ⟨hlt, by linarith, by linarith⟩
  · exact .inr ⟨hle, div_nonneg (sub_nonneg.2 (by exact_mod_cast hle)) hd.le, h1⟩

/-- At a colour's hue the spread times a channel's dip is what the channel lacks of the maximum. -/
theorem spread_mul_dips :
    ((mx : ℚ) - mn) * redDip (6 * (rgb2hsvQ ⟨r, g, b⟩).h) = mx - r ∧
    ((mx : ℚ) - mn) * greenDip (6 * (rgb2hsvQ ⟨r, g, b⟩).h) = mx - g ∧
    ((mx : ℚ) - mn) * blueDip (6 * (rgb2hsvQ ⟨r, g, b⟩).h) = mx - b := by
  by_cases hne : mx = mn
  · obtain ⟨rfl, rfl, rfl⟩ : mx = r ∧ mx = g ∧ mx = b := by omega
    simp [hne]
  have hquot := fun x y => quotient_cases hmx hmn hne (x := x) (y := y)
  obtain rfl | rfl | rfl : mx = r ∨ mx = g ∨ mx = b := by omega
  · obtain ⟨q, hq, hmul, ⟨hgb, h0, h1⟩ | ⟨hbg, h0, h1⟩⟩ := hquot g b (by omega) (by omega)
    · obtain rfl : mn = g := by omega
      obtain ⟨-, -, -, -, -, hr, hg, hb⟩ := dips_of_sector h0 h1
      rw [hue_red hmx hmn hne rfl, hq, if_pos hgb, show q + 6 = 5 + (1 + q) by ring, hr, hg, hb]
      exact ⟨by ring, by ring, by linarith⟩
    · obtain rfl : mn = b := by omega
      obtain ⟨⟨hr, hg, hb⟩, -⟩ := dips_of_sector h0 h1
      rw [hue_red hmx hmn hne rfl, hq, if_neg hbg.not_gt, add_comm, hr, hg, hb]
      exact ⟨by ring, by linarith, by ring⟩
  · obtain ⟨q, hq, hmul, ⟨hbr, h0, h1⟩ | ⟨hrb, h0, h1⟩⟩ := hquot b r (by omega) (by omega)
    · obtain rfl : mn = b := by omega
      obtain ⟨-, ⟨hr, hg, hb⟩, -⟩ := dips_of_sector h0 h1
      rw [hue_green hmx hmn hne rfl, hq, show q + 2 = 1 + (1 + q) by ring, hr, hg, hb]
      exact ⟨by linarith, by ring, by ring⟩
    · obtain rfl : mn = r := by omega
      obtain ⟨-, -, ⟨hr, hg, hb⟩, -⟩ := dips_of_sector h0 h1
      rw [hue_green hmx hmn hne rfl, hq, add_comm, hr, hg, hb]
      exact ⟨by ring, by ring, by linarith⟩
  · obtain ⟨q, hq, hmul, ⟨hrg, h0, h1⟩ | ⟨hgr, h0, h1⟩⟩ := hquot r g (by omega) (by omega)
    · obtain rfl : mn = r := by omega
      obtain ⟨-, -, -, ⟨hr, hg, hb⟩, -⟩ := dips_of_sector h0 h1
      rw [hue_blue hmx hmn hne rfl, hq, show q + 4 = 3 + (1 + q) by ring, hr, hg, hb]
      exact ⟨by ring, by linarith, by ring⟩
    · obtain rfl : mn = g := by omega
      obtain ⟨-, -, -, -, ⟨hr, hg, hb⟩, -⟩ := dips_of_sector h0 h1
      rw [hue_blue hmx hmn hne rfl, hq, add_comm, hr, hg, hb]
      exact ⟨by linarith, by ring, by ring⟩

/-- At a colour's saturation and value the component with a channel's dip is the channel, normalised (R102). -/
theorem component_eq_channel {w : ℚ} {c : Nat} (hw : ((mx : ℚ) - mn) * w = mx - c) :
    component (rgb2hsvQ ⟨r, g, b⟩).s (rgb2hsvQ ⟨r, g, b⟩).v w = c / 255 := by
  rw [component, rgb2hsvQ_v hmx hmn]
  by_cases h : mx = 0
  · obtain rfl : mn = 0 := by omega
    have hc : (c : ℚ) = 0 := by simpa [h] using hw
    rw [h, hc, Nat.cast_zero, zero_div, zero_mul]
  · have hne : (mx : ℚ) ≠ 0 := Nat.cast_ne_zero.2 h
    rw [rgb2hsvQ_s hmx hmn h]
    field_simp
    linarith

end Colour

/-- The components of a colour's own hue, saturation and value (R102). -/
theorem components_of_rgb2hsvQ {r g b : Nat} {c : HSV} (hc : rgb2hsvQ ⟨r, g, b⟩ = c) :
    component c.s c.v (redDip (6 * c.h)) = r / 255 ∧ component c.s c.v (greenDip (6 * c.h)) = g / 255 ∧
      component c.s c.v (blueDip (6 * c.h)) = b / 255 := by
  subst hc
  obtain ⟨hr, hg, hb⟩ := spread_mul_dips (r := r) (g := g) (b := b) rfl rfl
  exact ⟨component_eq_channel rfl rfl hr, component_eq_channel rfl rfl hg, component_eq_channel rfl rfl hb⟩

/-- A normalised channel converts back to itself. -/
theorem chan_div {c : Nat} (hc : c ≤ 255) : chan ((c : ℚ) / 255) = c :=
  chan_of_near hc (by rw [mul_div_cancel₀ _ (by norm_num : (255 : ℚ) ≠ 0), sub_self]; norm_num)

/-- Settles O20: each component comes out as the channel over 255. -/
theorem exactRoundTripRestoresTheColour : Obligations.ExactRoundTripRestoresTheColour := by
  intro r g b hr hg hb
  obtain ⟨h0, h1⟩ := hue_mem hr hg hb
  obtain ⟨hred, hgreen, hblue⟩ := components_of_rgb2hsvQ (r := r) (g := g) (b := b) rfl
  rw [hsv2rgbQ_eq_dips h0 (h1.trans_lt (by norm_num)), hred, hgreen, hblue, chan_div hr, chan_div hg, chan_div hb]

/-! The dips move no faster than the hue, so a small error in hue, saturation and value is small in each component. -/

/-- What the three dips share: a part of the whole, and no steeper than the hue (R107). -/
structure IsDip (dip : ℚ → ℚ) : Prop where
  mem : ∀ x, 0 ≤ dip x ∧ dip x ≤ 1
  sub_le : ∀ x y, |dip x - dip y| ≤ |x - y|

theorem unitClamp_mem (t : ℚ) : 0 ≤ unitClamp t ∧ unitClamp t ≤ 1 :=
  ⟨le_max_left _ _, max_le zero_le_one (min_le_left _ _)⟩

theorem unitClamp_sub_le (t u : ℚ) : |unitClamp t - unitClamp u| ≤ |t - u| := by
  refine (abs_max_sub_max_le_max _ _ _ _).trans (max_le (by simp) ?_)
  exact (abs_min_sub_min_le_max _ _ _ _).trans (max_le (by simp) le_rfl)

theorem redDip_isDip : IsDip redDip where
  mem _ := unitClamp_mem _
  sub_le x y := by
    refine (unitClamp_sub_le _ _).trans ?_
    rw [sub_sub_sub_cancel_left, abs_sub_comm x y]
    exact (abs_abs_sub_abs_le _ _).trans_eq (by ring_nf)

theorem greenDip_isDip : IsDip greenDip where
  mem _ := unitClamp_mem _
  sub_le x y := by
    refine (unitClamp_sub_le _ _).trans ?_
    rw [sub_sub_sub_cancel_right]
    exact (abs_abs_sub_abs_le _ _).trans_eq (by ring_nf)

theorem blueDip_isDip : IsDip blueDip where
  mem _ := unitClamp_mem _
  sub_le x y := by
    refine (unitClamp_sub_le _ _).trans ?_
    rw [sub_sub_sub_cancel_right]
    exact (abs_abs_sub_abs_le _ _).trans_eq (by ring_nf)

/-- A component moves by no more than value, saturation and dip together. -/
theorem component_sub_le {s v w s' v' w' : ℚ} (hv : 0 ≤ v ∧ v ≤ 1) (hs : 0 ≤ s' ∧ s' ≤ 1) (hw : 0 ≤ w ∧ w ≤ 1)
    (hw' : 0 ≤ w' ∧ w' ≤ 1) : |component s' v' w' - component s v w| ≤ |v' - v| + |s' - s| + |w' - w| := by
  have hfactor : ∀ {x y : ℚ}, 0 ≤ x ∧ x ≤ 1 → |x * y| ≤ |y| := fun {x y} ⟨h0, h1⟩ => by
    rw [abs_mul, abs_of_nonneg h0]
    exact mul_le_of_le_one_left (abs_nonneg y) h1
  have hws := mul_le_one₀ hw'.2 hs.1 hs.2
  have hws0 := mul_nonneg hw'.1 hs.1
  calc |component s' v' w' - component s v w|
      = |(1 - w' * s') * (v' - v) + v * w * (s - s') + v * s' * (w - w')| := by unfold component; ring_nf
    _ ≤ |(1 - w' * s') * (v' - v)| + |v * w * (s - s')| + |v * s' * (w - w')| := abs_add_three _ _ _
    _ ≤ |v' - v| + |s - s'| + |w - w'| :=
      add_le_add_three (hfactor ⟨by linarith, by linarith⟩)
        (hfactor ⟨mul_nonneg hv.1 hw.1, mul_le_one₀ hv.2 hw.1 hw.2⟩)
        (hfactor ⟨mul_nonneg hv.1 hs.1, mul_le_one₀ hv.2 hs.1 hs.2⟩)
    _ = |v' - v| + |s' - s| + |w' - w| := by rw [abs_sub_comm s, abs_sub_comm w]

/-- A channel survives rounding errors of `2 ^ -24` in hue, saturation and value. -/
theorem chan_component_of_near {dip : ℚ → ℚ} (hdip : IsDip dip) {c : Nat} (hc : c ≤ 255) {h s v h' s' v' : ℚ}
    (hexact : component s v (dip (6 * h)) = c / 255) (hv : 0 ≤ v ∧ v ≤ 1) (hs : 0 ≤ s' ∧ s' ≤ 1)
    (eh : |h' - h| ≤ 1 / 2 ^ 24) (es : |s' - s| ≤ 1 / 2 ^ 24) (ev : |v' - v| ≤ 1 / 2 ^ 24) :
    chan (component s' v' (dip (6 * h'))) = c := by
  refine chan_of_near hc ?_
  have hdip_near : |dip (6 * h') - dip (6 * h)| ≤ 6 / 2 ^ 24 := by
    refine (hdip.sub_le _ _).trans ?_
    rw [← mul_sub, abs_mul, abs_of_pos (by norm_num)]
    linarith
  have hnear := component_sub_le (s := s) (v' := v') hv hs (hdip.mem (6 * h)) (hdip.mem (6 * h'))
  rw [hexact] at hnear
  calc |255 * component s' v' (dip (6 * h')) - c|
      = 255 * |component s' v' (dip (6 * h')) - c / 255| := by
        rw [← abs_of_pos (by norm_num : (0 : ℚ) < 255), ← abs_mul, abs_of_pos (by norm_num : (0 : ℚ) < 255), mul_sub,
          mul_div_cancel₀ _ (by norm_num : (255 : ℚ) ≠ 0)]
    _ ≤ 255 * (8 / 2 ^ 24) := by linarith
    _ < 1 / 2 := by norm_num

/-- The round trip through the patterns that `RGB2HSV` writes (R102). -/
theorem roundTrip_rnd32 {r g b : Nat} (hr : r ≤ 255) (hg : g ≤ 255) (hb : b ≤ 255) :
    ∃ h s v, val (rnd32 (rgb2hsvQ ⟨r, g, b⟩).h) = some h ∧ val (rnd32 (rgb2hsvQ ⟨r, g, b⟩).s) = some s ∧
      val (rnd32 (rgb2hsvQ ⟨r, g, b⟩).v) = some v ∧ hsv2rgbQ h s v = ⟨r, g, b⟩ := by
  obtain ⟨hh0, hh1⟩ := hue_mem hr hg hb
  have hs := saturation_mem (r := r) (g := g) (b := b)
  have hv := value_mem hr hg hb
  obtain ⟨hred, hgreen, hblue⟩ := components_of_rgb2hsvQ (r := r) (g := g) (b := b) rfl
  obtain ⟨h', hh', h0, h1, eh⟩ := exists_val_rnd32_hue hh0 hh1
  obtain ⟨s', hs', s0, s1, es⟩ := exists_val_rnd32 hs.1 hs.2
  obtain ⟨v', hv', -, -, ev⟩ := exists_val_rnd32 hv.1 hv.2
  refine ⟨h', s', v', hh', hs', hv', ?_⟩
  rw [hsv2rgbQ_eq_dips h0 h1, chan_component_of_near redDip_isDip hr hred hv ⟨s0, s1⟩ eh es ev,
    chan_component_of_near greenDip_isDip hg hgreen hv ⟨s0, s1⟩ eh es ev,
    chan_component_of_near blueDip_isDip hb hblue hv ⟨s0, s1⟩ eh es ev]

end Sys2Proof.Machine

/-! SUPPORT. The ColorMath commands: none needs a configuration, so with no fault recorded each runs its own rule
(R99 to R101). -/

namespace Sys2Proof.Machine

section Ready

variable {s : State} (he : s.ERR = false)
include he

theorem exec_rgb2hsv_ready :
    exec .rgb2hsv s = .next { s with
      H := rnd32 (rgb2hsvQ (colourOf s.RGB)).h
      S := rnd32 (rgb2hsvQ (colourOf s.RGB)).s
      V := rnd32 (rgb2hsvQ (colourOf s.RGB)).v } :=
  (exec_rgb2hsv s).trans (command_ready _ he nofun)

theorem exec_hsv2rgb_ready :
    exec .hsv2rgb s = .next (withFinite .H s.H s fun h => withFinite .S s.S s fun sat => withFinite .V s.V s fun v =>
      { s with RGB := packColour (hsv2rgbQ h sat v) }) :=
  (exec_hsv2rgb s).trans (command_ready _ he nofun)

theorem exec_wheel_ready :
    exec .wheel s = .next (withFinite .INT s.INT s fun v =>
      if s.PERIOD = 0 then raiseFault .invalidOperand ((offsetOf .PERIOD).setWidth 32) s
      else { s with RGB := packColour (wheelQ s.POS.toNat s.PERIOD.toNat v) }) :=
  (exec_wheel s).trans (command_ready _ he nofun)

/-- `HSV2RGB` where all three registers hold numbers (R100). -/
theorem exec_hsv2rgb_finite {h sat v : ℚ} (hh : val s.H = some h) (hs : val s.S = some sat) (hv : val s.V = some v) :
    exec .hsv2rgb s = .next { s with RGB := packColour (hsv2rgbQ h sat v) } := by
  rw [exec_hsv2rgb_ready he, withFinite_some hh, withFinite_some hs, withFinite_some hv]

/-- `WHEEL` where `INT` holds no number (R101). -/
theorem exec_wheel_notFinite (hi : val s.INT = none) : exec .wheel s = .next (raiseFault .invalidOperand 0x28 s) := by
  rw [exec_wheel_ready he, withFinite_none hi]
  rfl

/-- `WHEEL` where `PERIOD` is 0 (R101). -/
theorem exec_wheel_noPeriod {v : ℚ} (hi : val s.INT = some v) (hp : s.PERIOD = 0) :
    exec .wheel s = .next (raiseFault .invalidOperand 0x30 s) := by
  rw [exec_wheel_ready he, withFinite_some hi, if_pos hp]
  rfl

/-- `WHEEL` where both checks pass (R101). -/
theorem exec_wheel_finite {v : ℚ} (hi : val s.INT = some v) (hp : s.PERIOD ≠ 0) :
    exec .wheel s = .next { s with RGB := packColour (wheelQ s.POS.toNat s.PERIOD.toNat v) } := by
  rw [exec_wheel_ready he, withFinite_some hi, if_neg hp]

end Ready

/-- Settles O10: dispatch lets the command's own rule decide. -/
theorem rgb2hsvWritesTheRoundedHsv : Obligations.Rgb2hsvWritesTheRoundedHsv :=
  ⟨by decide, fun _ he => exec_rgb2hsv_ready he⟩

/-- Settles O11: the checks one after the other. -/
theorem hsv2rgbChecksThenConverts : Obligations.Hsv2rgbChecksThenConverts := by
  refine ⟨by decide, fun s he => ⟨fun hh => ?_, fun h hh hs => ?_, fun h sat hh hs hv => ?_,
    fun h sat v hh hs hv => exec_hsv2rgb_finite he hh hs hv⟩⟩
  · rw [exec_hsv2rgb_ready he, withFinite_none hh]; rfl
  · rw [exec_hsv2rgb_ready he, withFinite_some hh, withFinite_none hs]; rfl
  · rw [exec_hsv2rgb_ready he, withFinite_some hh, withFinite_some hs, withFinite_none hv]; rfl

/-- Settles O12: the check of `INT` first, then that of `PERIOD`. -/
theorem wheelChecksThenConverts : Obligations.WheelChecksThenConverts :=
  ⟨by decide, fun _ he => ⟨fun hi => exec_wheel_notFinite he hi, fun _ hi hp => exec_wheel_noPeriod he hi hp,
    fun _ hi hp => ⟨_, rfl, exec_wheel_finite he hi hp⟩⟩⟩

/-- The wheel reduces a position by its period (R104). -/
theorem wheelQ_add_mul (pos P n : Nat) (v : ℚ) : wheelQ (pos + n * P) P v = wheelQ pos P v := by
  rw [wheelQ, Nat.add_mul_mod_self_right, wheelQ]

/-- Settles O22: whatever `WHEEL` does, it reads `POS` through `wheelQ` alone. -/
theorem wheelWrapsAtThePeriod : Obligations.WheelWrapsAtThePeriod := by
  refine ⟨fun pos P n v _ => wheelQ_add_mul pos P n v, fun s t n pos' h hpos => ?_⟩
  by_cases he : s.ERR = true
  · cases (exec_err Instr.noConfusion he).symm.trans h
    exact exec_err Instr.noConfusion he
  rw [Bool.not_eq_true] at he
  cases hi : val s.INT with
  | none =>
    cases (exec_wheel_notFinite he hi).symm.trans h
    exact exec_wheel_notFinite he hi
  | some v =>
    by_cases hp : s.PERIOD = 0
    · cases (exec_wheel_noPeriod he hi hp).symm.trans h
      exact exec_wheel_noPeriod he hi hp
    · cases (exec_wheel_finite he hi hp).symm.trans h
      have hnext := exec_wheel_finite (s := { s with POS := pos' }) he hi hp
      rwa [hpos, wheelQ_add_mul] at hnext

/-- Packing the channels of a colour register gives the register. -/
@[simp] theorem packColour_colourOf (rgb : BitVec 24) : packColour (colourOf rgb) = rgb := by
  simp only [packColour, colourOf, BitVec.ofNat_toNat, BitVec.setWidth_eq]
  rw [BitVec.extractLsb'_append_extractLsb'_eq_extractLsb' (start₂ := 16) (start₁ := 8) (len₁ := 8) rfl,
    BitVec.extractLsb'_append_extractLsb'_eq_extractLsb' (start₂ := 8) (start₁ := 0) (len₁ := 8) rfl,
    BitVec.extractLsb'_eq_self]

/-- Settles O21: the registers hold the rounded values, and from those each channel comes back. -/
theorem registerRoundTripRestoresRgb : Obligations.RegisterRoundTripRestoresRgb := by
  intro s he
  obtain ⟨hr, hg, hb⟩ := colourOf_le s.RGB
  obtain ⟨h, sat, v, hh, hs, hv, hback⟩ := roundTrip_rnd32 hr hg hb
  have hnext := exec_hsv2rgb_finite (s := { s with
    H := rnd32 (rgb2hsvQ (colourOf s.RGB)).h
    S := rnd32 (rgb2hsvQ (colourOf s.RGB)).s
    V := rnd32 (rgb2hsvQ (colourOf s.RGB)).v }) he hh hs hv
  rw [hback, packColour_colourOf] at hnext
  exact ⟨_, exec_rgb2hsv_ready he, hnext⟩

end Sys2Proof.Machine

/-! SUPPORT. The intensity encoders: the three-channel scaler in closed form (R121, R125) and the four-channel ceiling
(R122). -/

namespace Sys2Proof.Machine

/-- An intensity of 1 or more leaves the colour (R121). -/
theorem enc3_of_one_le {x : ℚ} (hx : 1 ≤ x) (c : Colour) : enc3 c x = c := if_pos hx

/-- A component is linear in the value, so replacing the value rescales it (R125). -/
theorem component_mul_comm (s v w x : ℚ) : component s x w * v = x * component s v w := by
  unfold component
  ring

section Scaler

variable {r g b mx : Nat} {x : ℚ}

/-- At value `x` the component of a channel `c` is `x * c / mx` (R125). -/
theorem component_scaled (hmx : mx = max r (max g b)) (h0 : mx ≠ 0) {w : ℚ} {c : Nat}
    (hw : component (rgb2hsvQ ⟨r, g, b⟩).s (rgb2hsvQ ⟨r, g, b⟩).v w = c / 255) :
    component (rgb2hsvQ ⟨r, g, b⟩).s x w = x * c / mx := by
  have hlin := component_mul_comm (rgb2hsvQ ⟨r, g, b⟩).s (rgb2hsvQ ⟨r, g, b⟩).v w x
  rw [hw, rgb2hsvQ_v hmx rfl] at hlin
  have hne : (mx : ℚ) ≠ 0 := Nat.cast_ne_zero.2 h0
  field_simp at hlin ⊢
  exact hlin

variable (hr : r ≤ 255) (hg : g ≤ 255) (hb : b ≤ 255) (hx : x < 1)
include hr hg hb hx

/-- Below intensity 1 the scaler converts at the colour's hue and saturation and the value `x` (R121). -/
theorem enc3_eq_dips :
    enc3 ⟨r, g, b⟩ x =
      ⟨chan (component (rgb2hsvQ ⟨r, g, b⟩).s x (redDip (6 * (rgb2hsvQ ⟨r, g, b⟩).h))),
        chan (component (rgb2hsvQ ⟨r, g, b⟩).s x (greenDip (6 * (rgb2hsvQ ⟨r, g, b⟩).h))),
        chan (component (rgb2hsvQ ⟨r, g, b⟩).s x (blueDip (6 * (rgb2hsvQ ⟨r, g, b⟩).h)))⟩ := by
  obtain ⟨h0, h1⟩ := hue_mem hr hg hb
  rw [enc3, if_neg hx.not_ge]
  exact hsv2rgbQ_eq_dips h0 (h1.trans_lt (by norm_num)) _ _

variable (hmx : mx = max r (max g b))
include hmx

/-- Black has saturation 0 and becomes the grey of `x`. -/
theorem enc3_black (h0 : mx = 0) : enc3 ⟨r, g, b⟩ x = ⟨chan x, chan x, chan x⟩ := by
  have hgrey : ∀ w, component 0 x w = x := fun w => by rw [component]; ring
  rw [enc3_eq_dips hr hg hb hx, rgb2hsvQ_s_of_black hmx rfl h0, hgrey, hgrey, hgrey]

theorem enc3_scaled (h0 : mx ≠ 0) :
    enc3 ⟨r, g, b⟩ x = ⟨chan (x * r / mx), chan (x * g / mx), chan (x * b / mx)⟩ := by
  obtain ⟨hred, hgreen, hblue⟩ := components_of_rgb2hsvQ (r := r) (g := g) (b := b) rfl
  rw [enc3_eq_dips hr hg hb hx, component_scaled hmx h0 hred, component_scaled hmx h0 hgreen,
    component_scaled hmx h0 hblue]

end Scaler

/-- Settles O24: each component is linear in the value, which the scaler replaces. -/
theorem enc3ScalesToTheIntensity : Obligations.Enc3ScalesToTheIntensity :=
  fun _ _ _ _ _ hr hg hb hmx => ⟨fun hx => enc3_of_one_le hx _, fun hx => enc3_black hr hg hb hx hmx,
    fun hx => enc3_scaled hr hg hb hx hmx⟩

/-- The scaler keeps channels in a byte. -/
theorem enc3_le {c : Colour} (hc : c.r ≤ 255 ∧ c.g ≤ 255 ∧ c.b ≤ 255) (x : ℚ) :
    (enc3 c x).r ≤ 255 ∧ (enc3 c x).g ≤ 255 ∧ (enc3 c x).b ≤ 255 := by
  unfold enc3
  split
  · exact hc
  · exact hsv2rgbQ_le _ _ _

/-- The quantiser as an integer: the ceiling, limited to the field's range (R122). -/
theorem enc4_cast (x : ℚ) : (enc4 x : Int) = max 0 (min 31 ⌈31 * x⌉) := by
  unfold enc4
  dsimp only
  split_ifs <;> omega

/-- Settles O25: each threshold of the field is one of the ceiling. -/
theorem enc4IsTheSaturatedCeiling : Obligations.Enc4IsTheSaturatedCeiling := by
  intro x
  have hcast := enc4_cast x
  refine ⟨?_, ?_, fun k hk1 hk30 => ?_⟩
  · calc enc4 x = 0 ↔ ⌈31 * x⌉ ≤ 0 := by omega
      _ ↔ x ≤ 0 := by rw [Int.ceil_le]; push_cast; constructor <;> intro h <;> linarith
  · calc enc4 x = 31 ↔ 30 < ⌈31 * x⌉ := by omega
      _ ↔ 30 / 31 < x := by rw [Int.lt_ceil]; push_cast; constructor <;> intro h <;> linarith
  · calc enc4 x = k ↔ ⌈31 * x⌉ = k := by omega
      _ ↔ ((k : ℚ) - 1) / 31 < x ∧ x ≤ k / 31 := by
        rw [Int.ceil_eq_iff, div_lt_iff₀' (by norm_num), le_div_iff₀' (by norm_num), Int.cast_natCast]

end Sys2Proof.Machine

/-! SUPPORT. The layout of a raw pixel (R31): its bytes, the encoded pixel (R123) and the channel reorder (R124). -/

namespace Sys2Proof.Machine

/-- The four bytes of a word put together of bytes (R31). -/
theorem bytes_of_append (top c0 c1 c2 : Byte) :
    (top ++ c0 ++ c1 ++ c2).extractLsb' 24 8 = top ∧ (top ++ c0 ++ c1 ++ c2).extractLsb' 16 8 = c0 ∧
      (top ++ c0 ++ c1 ++ c2).extractLsb' 8 8 = c1 ∧ (top ++ c0 ++ c1 ++ c2).extractLsb' 0 8 = c2 := by
  have above := @BitVec.extractLsb'_append_eq_of_le
  exact ⟨(above (by decide)).trans ((above (by decide)).trans BitVec.extractLsb'_append_eq_left),
    (above (by decide)).trans ((above (by decide)).trans BitVec.extractLsb'_append_eq_right),
    (above (by decide)).trans BitVec.extractLsb'_append_eq_right, BitVec.extractLsb'_append_eq_right⟩

/-- The dark pixel stays dark in every order (R124). -/
theorem permute_zero (perm : Nat) : permute 0 perm = 0 := by
  unfold permute
  split <;> rfl

/-- Settles O27: `permute` takes the word apart into its four bytes. -/
theorem permuteReordersTheColourBytes : Obligations.PermuteReordersTheColourBytes := by
  intro top c0 c1 c2
  obtain ⟨htop, h0, h1, h2⟩ := bytes_of_append top c0 c1 c2
  refine ⟨?_, ?_, ?_, ?_, ?_, ?_, permute_zero⟩ <;> rw [permute, htop, h0, h1, h2]

/-- The colour of a raw pixel, read byte by byte (R31). -/
theorem colourOf_lower (w : Word) :
    colourOf (w.extractLsb' 0 24) =
      ⟨(w.extractLsb' 16 8).toNat, (w.extractLsb' 8 8).toNat, (w.extractLsb' 0 8).toNat⟩ := by
  rw [colourOf, BitVec.extractLsb'_extractLsb'_of_le (by decide), BitVec.extractLsb'_extractLsb'_of_le (by decide),
    BitVec.extractLsb'_extractLsb'_of_le (by decide)]

/-- Three channels that fit in a byte come back from the packed colour (R23). -/
theorem colourOf_packColour {c : Colour} (hc : c.r ≤ 255 ∧ c.g ≤ 255 ∧ c.b ≤ 255) : colourOf (packColour c) = c := by
  obtain ⟨r, g, b⟩ := c
  obtain ⟨hr, hg, hb⟩ := hc
  have hred : (packColour ⟨r, g, b⟩).extractLsb' 16 8 = BitVec.ofNat 8 r :=
    (BitVec.extractLsb'_append_eq_of_le (by decide)).trans BitVec.extractLsb'_append_eq_left
  have hgreen : (packColour ⟨r, g, b⟩).extractLsb' 8 8 = BitVec.ofNat 8 g :=
    (BitVec.extractLsb'_append_eq_of_le (by decide)).trans BitVec.extractLsb'_append_eq_right
  have hblue : (packColour ⟨r, g, b⟩).extractLsb' 0 8 = BitVec.ofNat 8 b := BitVec.extractLsb'_append_eq_right
  have hbyte : ∀ {n : Nat}, n ≤ 255 → (BitVec.ofNat 8 n).toNat = n := fun h => by
    rw [BitVec.toNat_ofNat, Nat.mod_eq_of_lt (Nat.lt_succ_of_le h)]
  rw [colourOf, hred, hgreen, hblue, hbyte hr, hbyte hg, hbyte hb]

section Layout

variable (rgb : BitVec 24) (x : ℚ)

/-- ThreeChannel: the fourth byte is 0 (R123). -/
theorem encodePixel_threeChannel_top : (encodePixel rgb x .threeChannel).extractLsb' 24 8 = 0 :=
  BitVec.extractLsb'_append_eq_left

/-- ThreeChannel: the colour bytes are the scaled channels (R123). -/
theorem encodePixel_threeChannel_colour :
    colourOf ((encodePixel rgb x .threeChannel).extractLsb' 0 24) = enc3 (colourOf rgb) x :=
  (congrArg colourOf BitVec.extractLsb'_append_eq_right).trans (colourOf_packColour (enc3_le (colourOf_le rgb) x))

/-- FourChannelWithIntensity: the colour bytes are the colour itself (R123). -/
theorem encodePixel_fourChannel_colour :
    (encodePixel rgb x .fourChannelWithIntensity).extractLsb' 0 24 = rgb :=
  BitVec.extractLsb'_append_eq_right

/-- FourChannelWithIntensity: bits 28:24 hold the quantised intensity (R123). -/
theorem encodePixel_fourChannel_intensity :
    ((encodePixel rgb x .fourChannelWithIntensity).extractLsb' 24 5).toNat = enc4 x := by
  have hfield : (encodePixel rgb x .fourChannelWithIntensity).extractLsb' 24 5 = BitVec.ofNat 5 (enc4 x) :=
    (BitVec.extractLsb'_append_eq_of_le (by decide)).trans BitVec.extractLsb'_append_eq_right
  rw [hfield, BitVec.toNat_ofNat, Nat.mod_eq_of_lt (Nat.lt_succ_of_le (enc4_le x))]

/-- FourChannelWithIntensity: bits 31:29 are 0 (R123). -/
theorem encodePixel_fourChannel_top : (encodePixel rgb x .fourChannelWithIntensity).extractLsb' 29 3 = 0 :=
  (BitVec.extractLsb'_append_eq_of_le (by decide)).trans BitVec.extractLsb'_append_eq_left

end Layout

/-- Settles O26, field by field. -/
theorem encodedPixelHasTheRawLayout : Obligations.EncodedPixelHasTheRawLayout := by
  intro rgb x w
  refine ⟨?_, ?_⟩ <;> rintro rfl
  · exact ⟨encodePixel_threeChannel_top rgb x,
      (colourOf_lower _).symm.trans (encodePixel_threeChannel_colour rgb x)⟩
  · exact ⟨encodePixel_fourChannel_colour rgb x, encodePixel_fourChannel_intensity rgb x,
      encodePixel_fourChannel_top rgb x⟩

end Sys2Proof.Machine

/-! SUPPORT. The shared operations of the LedDriver commands, one rule for each outcome: the stores read slot by slot
(R54), the encoder (R127), the one-slot store (R128), the flush at the end (R130), and the legal configurations
(R120). -/

namespace Sys2Proof.Machine

/-- A store writes its one slot (R54). -/
theorem slotWritten_writeSlot {m : Memory} (hm : Memory.wf m = true) (i : Nat) (v : Word) :
    SlotWritten m (writeSlot m i v) i v :=
  ⟨readSlot_writeSlot_same hm i v, fun _ hj => readSlot_writeSlot_other hm hj v⟩

/-- A broadcast store writes the slots of the strip (R54). -/
theorem slotsFilled_fillSlots (m : Memory) (n : Nat) (v : Word) : SlotsFilled m (fillSlots m n v) n v :=
  ⟨fun _ hj => readSlot_fillSlots_lt m hj v, fun _ hj => readSlot_fillSlots_ge m hj v⟩

/-- A second broadcast store overwrites the first. -/
theorem fillSlots_fillSlots (m : Memory) (n : Nat) (v w : Word) :
    fillSlots (fillSlots m n v) n w = fillSlots m n w := by
  have hrun : ((if v = unlistedSlot then [] else (List.range n).map fun i => (i, v)) : Memory).filter
      (fun c => n ≤ c.1) = [] := by
    rw [List.filter_eq_nil_iff]
    intro c hc
    split at hc
    · cases hc
    · obtain ⟨i, hi, rfl⟩ := List.mem_map.1 hc
      simpa using hi
  rw [fillSlots, fillSlots, List.filter_append, hrun, List.nil_append, List.filter_filter]
  simp [fillSlots]

/-- The snapshot of a strip just filled shows the one word. -/
theorem snapshot_fillSlots (m : Memory) (n : Nat) (v : Word) : snapshot (fillSlots m n v) n = List.replicate n v := by
  rw [snapshot, List.eq_replicate_iff]
  refine ⟨by simp, fun w hw => ?_⟩
  obtain ⟨i, hi, rfl⟩ := List.mem_map.1 hw
  exact readSlot_fillSlots_lt m (List.mem_range.1 hi) v

/-! The protocol bit (R32). -/

theorem protoOf_eq_threeChannel {cfg : Word} : protoOf cfg = .threeChannel ↔ cfg.getLsbD 16 = false := by
  unfold protoOf
  cases cfg.getLsbD 16 <;> decide

theorem protoOf_eq_fourChannel {cfg : Word} :
    protoOf cfg = .fourChannelWithIntensity ↔ cfg.getLsbD 16 = true := by
  unfold protoOf
  cases cfg.getLsbD 16 <;> decide

/-! What the commands write before a flush, under names of their own; `fillRaw` is the model's. -/

/-- `RAW` loaded with the encoded colour (R127). -/
def loadRaw (x : ℚ) (s : State) : State := { s with RAW := encodePixel s.RGB x (protoOf s.CFG) }

/-- `RAW` stored in the slot `IDX` (R128). -/
def storeRaw (s : State) : State := { s with PB := writeSlot s.PB s.IDX.toNat (storedRaw s) }

/-- `RAW` and every slot of the strip dark (R132). -/
def darken (s : State) : State := { s with RAW := darkPixel, PB := fillSlots s.PB (countOf s.CFG) darkPixel }

theorem Prepares.loadRaw {s u : State} (hu : Prepares s u) (x : ℚ) : Prepares s (loadRaw x u) := hu.setRaw _

theorem Prepares.storeRaw {s u : State} (hu : Prepares s u) (hi : u.IDX.toNat < countOf u.CFG) :
    Prepares s (storeRaw u) :=
  hu.storeSlot hi _

theorem Prepares.fillRaw {s u : State} (hu : Prepares s u) : Prepares s (fillRaw u) := hu.fillStrip _

theorem prepares_darken (s : State) : Prepares s (darken s) := ((Prepares.refl s).setRaw darkPixel).fillStrip darkPixel

theorem slotWritten_storeRaw {s : State} (hm : Memory.wf s.PB = true) :
    SlotWritten s.PB (storeRaw s).PB s.IDX.toNat (permute s.RAW (permOf s.CFG)) :=
  slotWritten_writeSlot hm _ _

theorem slotsFilled_fillRaw (s : State) :
    SlotsFilled s.PB (fillRaw s).PB (countOf s.CFG) (permute s.RAW (permOf s.CFG)) :=
  slotsFilled_fillSlots _ _ _

theorem slotsFilled_darken (s : State) : SlotsFilled s.PB (darken s).PB (countOf s.CFG) darkPixel :=
  slotsFilled_fillSlots _ _ _

section Rules

variable {s : State} {k : State → State}

theorem encodeRaw_notFinite (hi : val s.INT = none) : encodeRaw s k = raiseFault .invalidOperand 0x28 s :=
  withFinite_none hi

theorem encodeRaw_finite {x : ℚ} (hi : val s.INT = some x) :
    encodeRaw s k = k (loadRaw x s) :=
  withFinite_some hi

theorem putRaw_outside (hi : countOf s.CFG ≤ s.IDX.toNat) : putRaw s k = raiseFault .indexOutOfRange s.IDX s :=
  if_pos hi

theorem putRaw_inside (hi : s.IDX.toNat < countOf s.CFG) :
    putRaw s k = k (storeRaw s) :=
  if_neg hi.not_ge

end Rules

/-! The flush at the end of a command. -/

/-- What a command does before its flush does not touch the sink's answer (R61). -/
theorem Prepares.nextAnswer_eq {s u : State} (hu : Prepares s u) : nextAnswer u = nextAnswer s := by
  rw [nextAnswer, hu.sinkAnswers, hu.events, nextAnswer]

section Flush

variable {i : Instr} {s u : State} (hu : Prepares s u) (hx : exec i s = .next (doFlush u))
include hu hx

/-- A command whose flush is answered `ok` ends with the event (R130). -/
theorem Prepares.exec_flush_ok (ha : nextAnswer s = .ok) :
    exec i s = .next (emitFlush u) ∧ Flushed s (emitFlush u) .ok := by
  have hau := hu.nextAnswer_eq.trans ha
  refine ⟨hx.trans (by rw [doFlush_ok hau]), ?_⟩
  rw [← hau]
  exact hu.flushed_emitFlush

/-- A command whose flush is answered `fail` records the fault after the event (R130, R210). -/
theorem Prepares.exec_flush_fail (ha : nextAnswer s = .fail) :
    exec i s = .next (raiseFault .hardwareWriteFailure 0 (emitFlush u)) ∧
      Flushed s (raiseFault .hardwareWriteFailure 0 (emitFlush u)) .fail := by
  have hau := hu.nextAnswer_eq.trans ha
  refine ⟨hx.trans (by rw [doFlush_fail hau]), ?_⟩
  rw [← hau]
  exact hu.flushed_emitFlush

end Flush

/-- The configurations `INIT` accepts, by the raw fields of the word (R32, R120). -/
theorem legalConfig_iff_fields {n : Nat} {cfg : Word} :
    legalConfig n cfg = true ↔
      cfg.extractLsb' 20 12 = 0 ∧ (cfg.extractLsb' 17 3).toNat ≤ 5 ∧ cfg.extractLsb' 0 16 ≠ 0 ∧
        (cfg.extractLsb' 0 16).toNat ≤ n := by
  have hreserved : reservedOf cfg = 0 ↔ cfg.extractLsb' 20 12 = 0 := BitVec.toNat_inj (y := 0#12)
  have hcount : countOf cfg = 0 ↔ cfg.extractLsb' 0 16 = 0 := BitVec.toNat_inj (y := 0#16)
  rw [legalConfig_iff, hreserved, Nat.one_le_iff_ne_zero, Ne, hcount]
  rfl

end Sys2Proof.Machine

/-! SUPPORT. The LedDriver commands (R120, R127 to R132): with no fault recorded and a configuration latched each runs
its own rule. -/

namespace Sys2Proof.Machine

section Ready

variable {s : State} (he : s.ERR = false)
include he

/-- `INIT` where it refuses (R120). -/
theorem exec_init_refused (h : s.CFGD = true ∨ ¬ legalConfig s.npixMax s.CFGIN = true) :
    exec .init s = .next (raiseFault .invalidConfig s.CFGIN s) :=
  (exec_init s).trans ((command_ready (i := .init) _ he nofun).trans (congrArg _ (if_pos (by simpa using h))))

/-- `INIT` where it latches (R120). -/
theorem exec_init_latched (hc : s.CFGD = false) (h : legalConfig s.npixMax s.CFGIN = true) :
    exec .init s = .next { s with
      CFG := s.CFGIN, PB := fillSlots s.PB (countOf s.CFGIN) 0x00000000, CFGD := true } :=
  (exec_init s).trans ((command_ready (i := .init) _ he nofun).trans (congrArg _ (if_neg (by simp [hc, h]))))

variable (hc : s.CFGD = true)
include hc

theorem exec_enc_ready : exec .enc s = .next (encodeRaw s fun s => s) :=
  (exec_enc s).trans (command_ready _ he fun _ => hc)

theorem exec_put_ready : exec .put s = .next (putRaw s fun s => s) :=
  (exec_put s).trans (command_ready _ he fun _ => hc)

theorem exec_putFl_ready : exec .putFl s = .next (putRaw s doFlush) :=
  (exec_putFl s).trans (command_ready _ he fun _ => hc)

theorem exec_fill_ready : exec .fill s = .next (fillRaw s) :=
  (exec_fill s).trans (command_ready _ he fun _ => hc)

theorem exec_fillFl_ready : exec .fillFl s = .next (doFlush (fillRaw s)) :=
  (exec_fillFl s).trans (command_ready _ he fun _ => hc)

theorem exec_flush_ready : exec .flush s = .next (doFlush s) :=
  (exec_flush s).trans (command_ready _ he fun _ => hc)

theorem exec_set_ready : exec .set s = .next (encodeRaw s fun s => putRaw s doFlush) :=
  (exec_set s).trans (command_ready _ he fun _ => hc)

theorem exec_setAll_ready : exec .setAll s = .next (encodeRaw s fun s => doFlush (fillRaw s)) :=
  (exec_setAll s).trans (command_ready _ he fun _ => hc)

theorem exec_clear_ready : exec .clear s = .next (doFlush (darken s)) :=
  (exec_clear s).trans (command_ready _ he fun _ => hc)

/-! Where `INT` holds no number (R127, R131). -/

theorem exec_enc_notFinite (hi : val s.INT = none) : exec .enc s = .next (raiseFault .invalidOperand 0x28 s) := by
  rw [exec_enc_ready he hc, encodeRaw_notFinite hi]

theorem exec_set_notFinite (hi : val s.INT = none) : exec .set s = .next (raiseFault .invalidOperand 0x28 s) := by
  rw [exec_set_ready he hc, encodeRaw_notFinite hi]

theorem exec_setAll_notFinite (hi : val s.INT = none) :
    exec .setAll s = .next (raiseFault .invalidOperand 0x28 s) := by
  rw [exec_setAll_ready he hc, encodeRaw_notFinite hi]

/-! Where `INT` holds the number `x` (R127, R131). -/

section Finite

variable {x : ℚ} (hi : val s.INT = some x)
include hi

theorem exec_enc_finite : exec .enc s = .next (loadRaw x s) := by
  rw [exec_enc_ready he hc, encodeRaw_finite hi]

theorem exec_set_finite : exec .set s = .next (putRaw (loadRaw x s) doFlush) := by
  rw [exec_set_ready he hc, encodeRaw_finite hi]

theorem exec_setAll_finite : exec .setAll s = .next (doFlush (fillRaw (loadRaw x s))) := by
  rw [exec_setAll_ready he hc, encodeRaw_finite hi]

end Finite

end Ready

/-- Settles O35: after `ENC` the second command runs on its `RAW`, or is ignored if `ENC` recorded a fault. -/
theorem setIsEncThenPutFl : Obligations.SetIsEncThenPutFl := by
  intro s t he hc h
  cases hi : val s.INT with
  | none =>
    obtain rfl := Host.Outcome.next.inj ((exec_enc_notFinite he hc hi).symm.trans h)
    rw [exec_set_notFinite he hc hi, exec_setAll_notFinite he hc hi]
    exact ⟨(exec_err Instr.noConfusion rfl).symm, (exec_err Instr.noConfusion rfl).symm⟩
  | some x =>
    obtain rfl := Host.Outcome.next.inj ((exec_enc_finite he hc hi).symm.trans h)
    rw [exec_set_finite he hc hi, exec_setAll_finite he hc hi]
    exact ⟨(exec_putFl_ready (s := loadRaw x s) he hc).symm, (exec_fillFl_ready (s := loadRaw x s) he hc).symm⟩

/-- Settles O23: `INIT` refuses where a configuration is latched or a field of `CFGIN` is illegal. -/
theorem initLatchesOnlyALegalConfiguration : Obligations.InitLatchesOnlyALegalConfiguration := by
  refine ⟨by decide, fun s he => ⟨fun h => exec_init_refused he ?_, fun hc hz hp hn hmax =>
    ⟨_, exec_init_latched he hc (legalConfig_iff_fields.2 ⟨hz, hp, hn, hmax⟩), rfl, slotsFilled_fillSlots _ _ _⟩⟩⟩
  rw [legalConfig_iff_fields]
  refine h.imp_right ?_
  rintro h ⟨hz, hp, hn, hmax⟩
  rcases h with h | h | h | h
  · exact h hz
  · exact hp.not_gt h
  · exact hn h
  · exact hmax.not_gt h

/-- Settles O28: the finite check, then the encoder of the protocol bit. -/
theorem encWritesTheEncodedPixel : Obligations.EncWritesTheEncodedPixel := by
  refine ⟨by decide, fun s he => ⟨exec_notConfigured rfl he, exec_enc_notFinite he, fun x hc hi =>
    ⟨fun h => ?_, fun h => ?_⟩⟩⟩
  · rw [exec_enc_finite he hc hi, loadRaw, protoOf_eq_threeChannel.2 h]
  · rw [exec_enc_finite he hc hi, loadRaw, protoOf_eq_fourChannel.2 h]

/-- Settles O29: the index check, then the store. -/
theorem putWritesOneSlot : Obligations.PutWritesOneSlot := by
  refine ⟨fun w => ⟨rfl, rfl, protoOf_eq_threeChannel, protoOf_eq_fourChannel⟩, fun s he hm =>
    ⟨exec_notConfigured rfl he, fun hc hi => ?_, fun hc hi => ?_⟩⟩
  · rw [exec_put_ready he hc, putRaw_outside hi]
    rfl
  · rw [exec_put_ready he hc, putRaw_inside hi]
    exact ⟨_, rfl, rfl, slotWritten_storeRaw hm⟩

/-- Settles O30: as `PUT`, and the flush shows the buffer with the slot written. -/
theorem putFlWritesOneSlotAndFlushes : Obligations.PutFlWritesOneSlotAndFlushes := by
  intro s he hm
  have hx := fun hc hi => (exec_putFl_ready he hc).trans (congrArg _ (putRaw_inside hi))
  refine ⟨exec_notConfigured rfl he, fun hc hi => ?_, fun hc hi ha => ?_, fun hc hi ha => ?_⟩
  · rw [exec_putFl_ready he hc, putRaw_outside hi]
    rfl
  · obtain ⟨hok, hf⟩ := ((Prepares.refl s).storeRaw hi).exec_flush_ok (hx hc hi) ha
    exact ⟨_, hok, rfl, slotWritten_storeRaw hm, hf⟩
  · obtain ⟨hfail, hf⟩ := ((Prepares.refl s).storeRaw hi).exec_flush_fail (hx hc hi) ha
    exact ⟨_, hfail, rfl, slotWritten_storeRaw hm, hf⟩

/-- Settles O31: the broadcast store, and for `FILL.FL` the flush of the filled buffer. -/
theorem fillWritesEverySlot : Obligations.FillWritesEverySlot := by
  intro s he
  refine ⟨fun hc => ⟨exec_notConfigured rfl he hc, exec_notConfigured rfl he hc⟩,
    fun hc => ⟨_, exec_fill_ready he hc, rfl, slotsFilled_fillRaw s⟩, fun hc ha => ?_, fun hc ha => ?_⟩
  · obtain ⟨hok, hf⟩ := (Prepares.refl s).fillRaw.exec_flush_ok (exec_fillFl_ready he hc) ha
    exact ⟨_, hok, rfl, slotsFilled_fillRaw s, hf⟩
  · obtain ⟨hfail, hf⟩ := (Prepares.refl s).fillRaw.exec_flush_fail (exec_fillFl_ready he hc) ha
    exact ⟨_, hfail, rfl, slotsFilled_fillRaw s, hf⟩

/-- Settles O32: nothing stands before the flush. -/
theorem flushPushesTheBuffer : Obligations.FlushPushesTheBuffer := by
  refine ⟨by decide, fun s he => ⟨exec_notConfigured rfl he, fun hc ha => ?_, fun hc ha => ?_⟩⟩
  · obtain ⟨hok, hf⟩ := (Prepares.refl s).exec_flush_ok (exec_flush_ready he hc) ha
    exact ⟨_, hok, rfl, hf⟩
  · obtain ⟨hfail, hf⟩ := (Prepares.refl s).exec_flush_fail (exec_flush_ready he hc) ha
    exact ⟨_, hfail, rfl, hf⟩

/-- Settles O33: `ENC`'s check and write, then those of `PUT.FL` on the new `RAW`. -/
theorem setEncodesStoresAndFlushes : Obligations.SetEncodesStoresAndFlushes := by
  intro s he hm
  refine ⟨exec_notConfigured rfl he, exec_set_notFinite he, ?_⟩
  rintro x raw hc hi rfl
  have hu := (Prepares.refl s).loadRaw x
  have hx := exec_set_finite he hc hi
  have hin := fun hlt => hx.trans (congrArg _ (putRaw_inside (s := loadRaw x s) hlt))
  have hslot := slotWritten_storeRaw (s := loadRaw x s) hm
  refine ⟨fun hge => ?_, fun hlt ha => ?_, fun hlt ha => ?_⟩
  · exact hx.trans (congrArg _ (putRaw_outside (s := loadRaw x s) hge))
  · obtain ⟨hok, hf⟩ := (hu.storeRaw hlt).exec_flush_ok (hin hlt) ha
    exact ⟨_, hok, rfl, hslot, hf⟩
  · obtain ⟨hfail, hf⟩ := (hu.storeRaw hlt).exec_flush_fail (hin hlt) ha
    exact ⟨_, hfail, rfl, hslot, hf⟩

/-- Settles O34: `ENC`'s check and write, then `FILL.FL` on the new `RAW`. -/
theorem setAllEncodesStoresAndFlushes : Obligations.SetAllEncodesStoresAndFlushes := by
  intro s he
  refine ⟨exec_notConfigured rfl he, exec_setAll_notFinite he, ?_⟩
  rintro x raw hc hi rfl
  have hu := ((Prepares.refl s).loadRaw x).fillRaw
  have hx := exec_setAll_finite he hc hi
  refine ⟨fun ha => ?_, fun ha => ?_⟩
  · obtain ⟨hok, hf⟩ := hu.exec_flush_ok hx ha
    exact ⟨_, hok, rfl, slotsFilled_fillRaw (loadRaw x s), hf⟩
  · obtain ⟨hfail, hf⟩ := hu.exec_flush_fail hx ha
    exact ⟨_, hfail, rfl, slotsFilled_fillRaw (loadRaw x s), hf⟩

/-- Settles O36: both writes are of the dark pixel, and the flush shows it in every slot. -/
theorem clearDarkensEverySlot : Obligations.ClearDarkensEverySlot := by
  refine ⟨by decide, fun s he => ⟨exec_notConfigured rfl he, fun hc ha => ?_, fun hc ha => ?_⟩⟩
  · obtain ⟨hok, hf⟩ := (prepares_darken s).exec_flush_ok (exec_clear_ready he hc) ha
    exact ⟨_, hok, rfl, slotsFilled_darken s, hf⟩
  · obtain ⟨hfail, hf⟩ := (prepares_darken s).exec_flush_fail (exec_clear_ready he hc) ha
    exact ⟨_, hfail, rfl, slotsFilled_darken s, hf⟩

/-! The second `CLEAR` (R132). -/

/-- Darkening finds a strip just darkened and flushed as it would leave it. -/
theorem darken_emitFlush_darken (s : State) : darken (emitFlush (darken s)) = emitFlush (darken s) := by
  have hPB : fillSlots (darken s).PB (countOf s.CFG) darkPixel = (darken s).PB := fillSlots_fillSlots _ _ _ _
  exact congrArg (fun m => { emitFlush (darken s) with PB := m }) hPB

/-- A flush answered `ok` that shows what the strip shows already changes the history alone (R42, R61). -/
theorem emitFlush_same {t : State} (ha : nextAnswer t = .ok) (hshot : snapshot t.PB (countOf t.CFG) = t.DISP) :
    emitFlush t = { t with
      events := t.events ++ [⟨t.DISP, protoOf t.CFG, .ok⟩]
      sinkAnswers := t.sinkAnswers.tail } := by
  rw [emitFlush, hshot, ha, displayed]

/-- Settles O37: the second broadcast store finds every slot dark, so the second snapshot is the first. -/
theorem secondClearOnlyFlushesAgain : Obligations.SecondClearOnlyFlushesAgain := by
  intro s t he hc ha h hat
  have hdark : nextAnswer (darken s) = .ok := (prepares_darken s).nextAnswer_eq.trans ha
  have hfirst := exec_clear_ready he hc
  rw [doFlush_ok hdark] at hfirst
  obtain rfl := Host.Outcome.next.inj (hfirst.symm.trans h)
  have hshot : snapshot (darken s).PB (countOf s.CFG) = List.replicate (countOf s.CFG) 0x00000000 :=
    snapshot_fillSlots _ _ _
  have hdisp : (emitFlush (darken s)).DISP = List.replicate (countOf s.CFG) 0x00000000 := by
    rw [emitFlush_DISP, hdark]
    exact hshot
  rw [exec_clear_ready (s := emitFlush (darken s)) he hc, darken_emitFlush_darken, doFlush_ok hat,
    emitFlush_same hat (hshot.trans hdisp.symm), hdisp]
  rfl

end Sys2Proof.Machine

/-! SUPPORT. The per-pixel and per-frame commands of the effects (R151 to R154): what each does once dispatch lets its
own rule run. -/

namespace Sys2Proof.Machine

/-! The travelling index (R151), with the frame read as a traversal and a place on it. -/

theorem cycleIndex_of_traversal {n r : Nat} (q : Nat) (hr : r < n) : cycleIndex (q * n + r) n = r := by
  rw [cycleIndex, Nat.mul_add_mod_self_right, Nat.mod_eq_of_lt hr]

theorem bounceIndex_of_traversal {n r : Nat} (q : Nat) (hr : r < n) :
    bounceIndex (q * n + r) n = if q % 2 = 0 then r else n - 1 - r := by
  have hdiv : (q * n + r) / n = q := by
    rw [Nat.mul_comm, Nat.mul_add_div (by omega), Nat.div_eq_of_lt hr, Nat.add_zero]
  rw [bounceIndex, hdiv, Nat.mul_add_mod_self_right, Nat.mod_eq_of_lt hr]

/-- An index of a strip, written to a register, is read back as it is (R28, R33). -/
theorem toNat_ofNat_index {i : Nat} {cfg : Word} (h : i < countOf cfg) : (BitVec.ofNat 32 i).toNat = i := by
  have hcount := countOf_lt cfg
  rw [BitVec.toNat_ofNat, Nat.mod_eq_of_lt (by omega)]

/-! The select (R152). -/

theorem selectRaw_notFinite {lit : Bool} {s : State} (hi : val s.INT = none) :
    selectRaw lit s = raiseFault .invalidOperand 0x28 s :=
  withFinite_none hi

theorem selectRaw_finite {lit : Bool} {s : State} {x : ℚ} (hi : val s.INT = some x) :
    selectRaw lit s = { s with RAW := if lit then encodePixel s.RGB x (protoOf s.CFG) else darkPixel } :=
  withFinite_some hi

/-! The steps of the ramp (R153). -/

/-- A multiple of its own unit is not rounded (R92). -/
theorem val_rnd32_of_multiple {q : ℚ} {j : Int} (hq : 0 < q) (hle : q ≤ 2 ^ 127) (h : q = j * roundUnit q) :
    val (rnd32 q) = some q := by
  have hsig : significand q = j := by
    rw [significand, (div_eq_iff (roundUnit_pos q).ne').2 h, rhe_intCast]
  rw [val_rnd32 hq hle, hsig, ← h]

/-- A rational of `[0, 1]` with at most 23 binary places is not rounded (R92). -/
theorem val_rnd32_dyadic {m p : Nat} (hp : p ≤ 23) (hm : m ≤ 2 ^ p) :
    val (rnd32 (m / 2 ^ p)) = some ((m : ℚ) / 2 ^ p) := by
  obtain rfl | hpos := Nat.eq_zero_or_pos m
  · rw [Nat.cast_zero, zero_div, rnd32_zero, val_zero]
  have hq : (0 : ℚ) < m / 2 ^ p := by positivity
  have hone : (m : ℚ) / 2 ^ p ≤ 1 := (div_le_one (by positivity)).2 (by exact_mod_cast hm)
  have hE := roundExponent_le hq (k := 0) (by norm_num) hone
  obtain ⟨d, hd⟩ := Int.eq_ofNat_of_zero_le (a := -(p : Int) - (roundExponent (m / 2 ^ p) - 23)) (by omega)
  refine val_rnd32_of_multiple (j := m * 2 ^ d) hq (hone.trans (by norm_num)) ?_
  have hunits : pow2 (-(p : Int)) = 2 ^ d * roundUnit (m / 2 ^ p) := by
    rw [roundUnit, ← zpow_natCast (2 : ℚ) d, ← pow2_eq_zpow, ← pow2_add, ← hd, sub_add_cancel]
  calc (m : ℚ) / 2 ^ p = m * pow2 (-(p : Int)) := by rw [pow2_eq_zpow, zpow_neg, zpow_natCast, div_eq_mul_inv]
    _ = (m * 2 ^ d : Int) * roundUnit (m / 2 ^ p) := by rw [hunits]; push_cast; ring

/-- The pattern of a step of the ramp: exactly `m / 32`, with sign 0 (R153). -/
theorem rnd32_step {m : Nat} (hm : m ≤ 32) :
    val (rnd32 (m / 32)) = some ((m : ℚ) / 32) ∧ (rnd32 (m / 32)).getLsbD 31 = false := by
  have hval := val_rnd32_dyadic (m := m) (p := 5) (by norm_num) (by omega)
  have hle : (m : ℚ) / 32 ≤ 2 ^ 127 := by
    have : (m : ℚ) ≤ 32 := by exact_mod_cast hm
    linarith
  obtain ⟨hsign, -⟩ := rnd32IsNearestTiesToEven (m / 32) (by positivity) hle
  rw [show (2 : ℚ) ^ 5 = 32 by norm_num] at hval
  exact ⟨hval, hsign⟩

/-! The wheel position (R154). -/

section WheelPosition

variable {f : Nat → Nat → Nat → Nat} {s : State}

theorem wheelPosition_outside (hi : countOf s.CFG ≤ s.IDX.toNat) :
    wheelPosition f s = raiseFault .indexOutOfRange s.IDX s :=
  if_pos hi

theorem wheelPosition_inside (hi : s.IDX.toNat < countOf s.CFG) :
    wheelPosition f s = { s with POS := BitVec.ofNat 32 (f s.IDX.toNat s.FRAME.toNat (countOf s.CFG)) } :=
  if_neg hi.not_ge

end WheelPosition

theorem colorCyclePos_le {idx n : Nat} (frame : Nat) (h : idx < n) : colorCyclePos idx frame n ≤ 719 := by
  have hturn : idx * 360 / n < 360 := (Nat.div_lt_iff_lt_mul (by omega)).2 (by omega)
  unfold colorCyclePos
  omega

/-! With no fault recorded each command runs its own rule. -/

section Ready

variable {s : State} (he : s.ERR = false)
include he

theorem exec_fade_ready : exec .fade s = .next { s with INT := rnd32 ((s.FRAME.toNat % 32 : Nat) / 32) } :=
  (exec_fade s).trans (command_ready _ he nofun)

theorem exec_fadeOut_ready : exec .fadeOut s = .next { s with INT := rnd32 ((32 - s.FRAME.toNat % 32 : Nat) / 32) } :=
  (exec_fadeOut s).trans (command_ready _ he nofun)

variable (hc : s.CFGD = true)
include hc

theorem exec_tidx_ready :
    exec .tidx s = .next { s with TGT := BitVec.ofNat 32 (cycleIndex s.FRAME.toNat (countOf s.CFG)) } :=
  (exec_tidx s).trans (command_ready _ he fun _ => hc)

theorem exec_tidxBnc_ready :
    exec .tidxBnc s = .next { s with TGT := BitVec.ofNat 32 (bounceIndex s.FRAME.toNat (countOf s.CFG)) } :=
  (exec_tidxBnc s).trans (command_ready _ he fun _ => hc)

theorem exec_sel_ready : exec .sel s = .next (selectRaw (s.IDX == s.TGT) s) :=
  (exec_sel s).trans (command_ready _ he fun _ => hc)

theorem exec_selInv_ready : exec .selInv s = .next (selectRaw (!(s.IDX == s.TGT)) s) :=
  (exec_selInv s).trans (command_ready _ he fun _ => hc)

theorem exec_wpos_ready : exec .wpos s = .next (wheelPosition colorCyclePos s) :=
  (exec_wpos s).trans (command_ready _ he fun _ => hc)

theorem exec_wposRb_ready : exec .wposRb s = .next (wheelPosition rainbowPos s) :=
  (exec_wposRb s).trans (command_ready _ he fun _ => hc)

end Ready

/-- Settles O38: the frame is `r` pixels into traversal `q`. -/
theorem tidxTravelsAndBounces : Obligations.TidxTravelsAndBounces := by
  intro s he
  refine ⟨fun hc => ⟨exec_notConfigured rfl he hc, exec_notConfigured rfl he hc⟩, ?_⟩
  rintro n q r hc rfl - hframe hr
  refine ⟨⟨_, exec_tidx_ready he hc, rfl, ?_⟩, ⟨_, exec_tidxBnc_ready he hc, rfl, ?_, ?_⟩⟩
  · rw [hframe, cycleIndex_of_traversal q hr, toNat_ofNat_index hr]
  · intro heven
    rw [hframe, bounceIndex_of_traversal q hr, if_pos heven, toNat_ofNat_index hr]
  · intro hodd
    rw [hframe, bounceIndex_of_traversal q hr, if_neg (by omega), toNat_ofNat_index (cfg := s.CFG) (by omega)]

/-- Settles O39: the finite check, then the choice by whether `IDX` is `TGT`. -/
theorem selPicksTheLitOrTheDarkPixel : Obligations.SelPicksTheLitOrTheDarkPixel := by
  intro s he
  refine ⟨fun hc => ⟨exec_notConfigured rfl he hc, exec_notConfigured rfl he hc⟩, fun hc hi => ?_, fun x hc hi => ?_⟩
  · rw [exec_sel_ready he hc, exec_selInv_ready he hc, selectRaw_notFinite hi, selectRaw_notFinite hi]
    exact ⟨rfl, rfl⟩
  · rw [exec_sel_ready he hc, exec_selInv_ready he hc, selectRaw_finite hi, selectRaw_finite hi]
    refine ⟨fun heq => ?_, fun hne => ?_⟩
    · rw [beq_iff_eq.2 heq]
      exact ⟨rfl, rfl⟩
    · rw [beq_eq_false_iff_ne.2 hne]
      exact ⟨rfl, rfl⟩

/-- Settles O40: both steps are 32nds in `[0, 1]`, which are patterns as they are. -/
theorem fadeWritesExactSteps : Obligations.FadeWritesExactSteps := by
  rintro s k he rfl
  have hk : s.FRAME.toNat % 32 ≤ 32 := (Nat.mod_lt _ (by norm_num)).le
  obtain ⟨hin, hinSign⟩ := rnd32_step hk
  obtain ⟨hout, houtSign⟩ := rnd32_step (Nat.sub_le 32 (s.FRAME.toNat % 32))
  refine ⟨⟨_, exec_fade_ready he, rfl, hin, hinSign⟩, ⟨_, exec_fadeOut_ready he, rfl, ?_, houtSign⟩⟩
  rw [hout, Nat.cast_sub hk, Nat.cast_ofNat]

/-- Settles O41: the index check, then the position, which fits in the register. -/
theorem wposPlacesThePixelOnTheWheel : Obligations.WposPlacesThePixelOnTheWheel := by
  intro s he
  refine ⟨fun hc => ⟨exec_notConfigured rfl he hc, exec_notConfigured rfl he hc⟩, fun hc hi => ?_, fun hc hi => ?_⟩
  · rw [exec_wpos_ready he hc, exec_wposRb_ready he hc, wheelPosition_outside hi, wheelPosition_outside hi]
    exact ⟨rfl, rfl⟩
  · have hle := colorCyclePos_le s.FRAME.toNat hi
    have hpos : (BitVec.ofNat 32 (colorCyclePos s.IDX.toNat s.FRAME.toNat (countOf s.CFG))).toNat =
        colorCyclePos s.IDX.toNat s.FRAME.toNat (countOf s.CFG) := by
      rw [BitVec.toNat_ofNat, Nat.mod_eq_of_lt (by omega)]
    have hrb : rainbowPos s.IDX.toNat s.FRAME.toNat (countOf s.CFG) < 256 := Nat.mod_lt _ (by norm_num)
    rw [exec_wpos_ready he hc, exec_wposRb_ready he hc, wheelPosition_inside hi, wheelPosition_inside hi]
    refine ⟨⟨_, rfl, rfl, hpos, hpos.trans_le hle⟩, ⟨_, rfl, rfl, ?_⟩⟩
    rw [BitVec.toNat_ofNat, Nat.mod_eq_of_lt (by omega), rainbowPos]

/-- An index of the strip in `IDX` is the one in `TGT` exactly where the numbers are equal. -/
theorem ofNat_index_eq_iff {i : Nat} {cfg tgt : Word} (h : i < countOf cfg) :
    BitVec.ofNat 32 i = tgt ↔ i = tgt.toNat := by
  rw [← BitVec.toNat_inj, toNat_ofNat_index h]

/-- Settles O42: `SEL` and `SEL.INV` at each index of the strip. -/
theorem exactlyOnePixelDiffers : Obligations.ExactlyOnePixelDiffers := by
  intro s x i he hc hi _ hlt
  obtain ⟨-, -, hsel⟩ := selPicksTheLitOrTheDarkPixel { s with IDX := BitVec.ofNat 32 i } he
  obtain ⟨hat, helse⟩ := hsel x hc hi
  by_cases htgt : i = s.TGT.toNat
  · obtain ⟨ht, hu⟩ := hat ((ofNat_index_eq_iff hlt).2 htgt)
    refine ⟨_, _, ht, hu, fun _ => ⟨rfl, rfl⟩, fun hne => absurd htgt hne, fun hlit => ?_, fun hdark => ⟨hdark, rfl⟩⟩
    exact ⟨iff_of_true hlit htgt, iff_of_true rfl htgt⟩
  · obtain ⟨ht, hu⟩ := helse (mt (ofNat_index_eq_iff hlt).1 htgt)
    refine ⟨_, _, ht, hu, fun heq => absurd heq htgt, fun _ => ⟨rfl, rfl⟩, fun hlit => ?_, fun hdark => ⟨rfl, hdark⟩⟩
    exact ⟨iff_of_false (· rfl) htgt, iff_of_false hlit htgt⟩

end Sys2Proof.Machine

/-! SUPPORT. Which colours and intensities encode to the dark word (R155). -/

namespace Sys2Proof.Machine

/-- Rounding stays at or below an even integer up to the tie above it (R93). -/
theorem rhe_le_even_iff {q : ℚ} {n : Int} (hn : n % 2 = 0) : rhe q ≤ n ↔ q ≤ n + 1 / 2 := by
  obtain ⟨hlow, hhigh⟩ := rhe_bounds q
  constructor
  · intro h
    have hcast : (rhe q : ℚ) ≤ n := by exact_mod_cast h
    linarith
  · intro h
    by_contra hgt
    have hone : ((n + 1 : Int) : ℚ) ≤ rhe q := by exact_mod_cast (by omega : n + 1 ≤ rhe q)
    have hdist : |q - rhe q| = 1 / 2 := by
      push_cast at hone
      rw [abs_of_nonpos (by linarith)]
      linarith
    have hnext : rhe q = n + 1 := by
      have : (rhe q : ℚ) = ((n + 1 : Int) : ℚ) := by push_cast at hone ⊢; linarith
      exact_mod_cast this
    rcases rhe_nearest q with hlt | ⟨-, heven⟩
    · linarith
    · omega

theorem clamp8_eq_zero_iff {n : Int} : clamp8 n = 0 ↔ n ≤ 0 := by
  unfold clamp8
  split_ifs with hneg hgt
  · exact iff_of_true rfl hneg.le
  · exact iff_of_false id (by omega)
  · omega

/-- A channel is 0 up to half a step, the tie included (R94). -/
theorem chan_eq_zero_iff {x : ℚ} : chan x = 0 ↔ x ≤ 1 / 510 :=
  calc chan x = 0 ↔ 255 * x ≤ (0 : Int) + 1 / 2 := clamp8_eq_zero_iff.trans (rhe_le_even_iff rfl)
    _ ↔ x ≤ 1 / 510 := by rw [Int.cast_zero]; constructor <;> intro h <;> linarith

/-- A component that is not above the value `x` rounds to 0 where `x` does. -/
theorem chan_scaled_eq_zero {x : ℚ} {c mx : Nat} (hx : x ≤ 1 / 510) (hc : c ≤ mx) : chan (x * c / mx) = 0 := by
  have h0 : (0 : ℚ) ≤ (c : ℚ) / mx := by positivity
  have h1 : (c : ℚ) / mx ≤ 1 := div_le_one_of_le₀ (by exact_mod_cast hc) (Nat.cast_nonneg _)
  rw [chan_eq_zero_iff, mul_div_assoc]
  obtain hneg | hpos := le_total x 0
  · linarith [mul_nonpos_of_nonpos_of_nonneg hneg h0]
  · linarith [mul_le_of_le_one_right hpos h1]

theorem chan_scaled_max {x : ℚ} {mx : Nat} (h : mx ≠ 0) : chan (x * mx / mx) = chan x := by
  rw [mul_div_cancel_right₀ _ (Nat.cast_ne_zero.2 h)]

/-- Below intensity 1 the scaler gives black exactly up to half a step, whatever the colour (R125): the largest channel
becomes that of `x`, and no other is above it. -/
theorem enc3_eq_black_iff {r g b : Nat} {x : ℚ} (hr : r ≤ 255) (hg : g ≤ 255) (hb : b ≤ 255) (hx : x < 1) :
    enc3 ⟨r, g, b⟩ x = ⟨0, 0, 0⟩ ↔ x ≤ 1 / 510 := by
  obtain ⟨mx, hmx⟩ : ∃ mx, mx = max r (max g b) := ⟨_, rfl⟩
  by_cases h0 : mx = 0
  · rw [enc3_black hr hg hb hx hmx h0, Colour.mk.injEq, and_self, and_self, chan_eq_zero_iff]
  rw [enc3_scaled hr hg hb hx hmx h0, Colour.mk.injEq]
  constructor
  · rintro ⟨hred, hgreen, hblue⟩
    rw [← chan_eq_zero_iff, ← chan_scaled_max h0]
    obtain h | h | h : mx = r ∨ mx = g ∨ mx = b := by omega
    · rwa [← h] at hred
    · rwa [← h] at hgreen
    · rwa [← h] at hblue
  · intro h
    exact ⟨chan_scaled_eq_zero h (by omega), chan_scaled_eq_zero h (by omega), chan_scaled_eq_zero h (by omega)⟩

theorem colourOf_eq_black_iff {rgb : BitVec 24} : colourOf rgb = ⟨0, 0, 0⟩ ↔ rgb = 0 := by
  constructor
  · intro h
    rw [← packColour_colourOf rgb, h]
    rfl
  · rintro rfl
    rfl

/-- ThreeChannel: the word is dark exactly where the scaled colour is black (R123). -/
theorem encodePixel_threeChannel_eq_zero_iff {rgb : BitVec 24} {x : ℚ} :
    encodePixel rgb x .threeChannel = 0 ↔ enc3 (colourOf rgb) x = ⟨0, 0, 0⟩ := by
  constructor
  · intro h
    rw [← encodePixel_threeChannel_colour, h]
    rfl
  · intro h
    rw [encodePixel, h]
    rfl

/-- FourChannelWithIntensity: the word is dark exactly where the colour is black and the field 0 (R123). -/
theorem encodePixel_fourChannel_eq_zero_iff {rgb : BitVec 24} {x : ℚ} :
    encodePixel rgb x .fourChannelWithIntensity = 0 ↔ rgb = 0 ∧ enc4 x = 0 := by
  constructor
  · intro h
    have hcolour := encodePixel_fourChannel_colour rgb x
    have hfield := encodePixel_fourChannel_intensity rgb x
    rw [h] at hcolour hfield
    exact ⟨hcolour.symm, hfield.symm⟩
  · rintro ⟨rfl, h⟩
    rw [encodePixel, h]
    rfl

/-- Settles O43: an intensity of 1 or more leaves the colour, a lower one gives black exactly up to half a step; the
four-channel word holds the colour itself. -/
theorem darkEncodingsAreKnown : Obligations.DarkEncodingsAreKnown := by
  intro rgb x
  obtain ⟨hr, hg, hb⟩ := colourOf_le rgb
  rw [encodePixel_threeChannel_eq_zero_iff, encodePixel_fourChannel_eq_zero_iff]
  refine ⟨?_, and_congr_right fun _ => (enc4IsTheSaturatedCeiling x).1⟩
  obtain hx | hx := le_or_gt 1 x
  · have hbright : ¬ x ≤ 1 / 510 := by linarith
    rw [enc3_of_one_le hx, colourOf_eq_black_iff, and_iff_left hx, or_iff_left hbright]
  · rw [enc3_eq_black_iff hr hg hb hx, or_iff_right fun h => h.2.not_gt hx]

end Sys2Proof.Machine

/-! The control commands (43_control.md): `NOP` and `CLRERR`. -/

namespace Sys2Proof.Machine

/-- The word of `CLRERR`, read by the decoder (R73). -/
theorem decode_eq_clrerr {w : Word} : decode w = .ok .clrerr ↔ w = 0x00000002 := by
  have hword : encode .clrerr = 0x00000002 := by decide
  rw [decode_eq_ok, splitWord_eq_fieldsOf, hword]

/-- `NOP` changes nothing where dispatch ignores it (R72 step 1) and nothing where dispatch lets it run (R170). -/
theorem exec_nop_unchanged (s : State) : exec .nop s = .next s := by
  cases he : s.ERR with
  | true => exact exec_err (by decide) he
  | false => exact (exec_nop s).trans (command_ready _ he nofun)

/-- Settles O8: `NOP` has the word 0, and it changes nothing whether or not a fault is recorded. -/
theorem nopChangesNothing : Obligations.NopChangesNothing :=
  ⟨by decide, exec_nop_unchanged⟩

/-- Settles O9: `CLRERR` acknowledges the fault outside the gates of dispatch, which stop every other command. -/
theorem clrerrClearsTheRecordedFault : Obligations.ClrerrClearsTheRecordedFault :=
  ⟨fun _ => decode_eq_clrerr, exec_clrerr, fun _ _ he hi => exec_err hi he⟩

end Sys2Proof.Machine

/-! The recorded fault (60_exceptions.md): what a word written to `CMD` does to it, and which steps keep it. -/

namespace Sys2Proof.Machine

/-- The word of `CLRERR` acknowledges the fault (R171). -/
theorem runWord_clrerr (s : State) : runWord 0x00000002 s = .next (acknowledge s) :=
  (runWord_of_decode (decode_eq_clrerr.mpr rfl) s).trans (exec_clrerr s)

/-- While a fault is recorded a word that is not that of `CLRERR` does nothing, whether it is a command's (R72 step 1)
or illegal (R75, R204). -/
theorem runWord_err {w : Word} {s : State} (hw : w ≠ 0x00000002) (he : s.ERR = true) : runWord w s = .next s := by
  cases hd : decode w with
  | ok i =>
    have hi : i ≠ .clrerr := fun h => hw (decode_eq_clrerr.mp (h ▸ hd))
    rw [runWord_of_decode hd, exec_err hi he]
  | error e => simp [runWord, hd, he]

/-- Settles O6: the write reaches `CMD`, where the recorded fault lets only the word of `CLRERR` act. -/
theorem recordedFaultIgnoresCommands : Obligations.RecordedFaultIgnoresCommands := by
  intro s w rest hp he
  rw [step_write_CMD hp]
  constructor
  · intro hw
    exact runWord_err hw he
  · rintro rfl
    exact runWord_clrerr _

/-- Settles O55: a step without input and an access to the other registers leave the fault, and a word written to `CMD`
that is not that of `CLRERR` is ignored. -/
theorem firstFaultIsKept : Obligations.FirstFaultIsKept := by
  intro s t he h hnoReset hnoClrerr
  rcases step_cases h with ⟨-, rfl⟩ | ⟨rest, hp, -⟩ | ⟨_, _, -, ht⟩ | ⟨w, rest, hp, hrun⟩
  · exact ⟨he, rfl, rfl, rfl, rfl⟩
  · exact absurd hp (hnoReset rest)
  · rw [ht]
    exact ⟨he, rfl, rfl, rfl, rfl⟩
  · have hw : w ≠ 0x00000002 := by
      rintro rfl
      exact hnoClrerr rest hp
    cases hrun.symm.trans (runWord_err hw he)
    exact ⟨he, rfl, rfl, rfl, rfl⟩

end Sys2Proof.Machine

/-! Reset and the other inputs (70_reset_and_hazards.md): what a step does with each input that can wait. -/

namespace Sys2Proof.Machine

/-- With no input the CMU holds its state (R230, R236). -/
theorem step_no_input {s : State} (hp : s.pending = []) : step s = .next s := by
  simp [step, hp]

/-- The next input is a reset: the step is the platform's reset of the state without that input (R230). -/
theorem step_reset {s : State} {rest : List Input} (hp : s.pending = .reset :: rest) :
    step s = .next (platformReset { s with pending := rest }) := by
  simp [step, hp, receive]

/-- A transaction of a second bus master is refused before it reaches the bus (R59). -/
theorem step_secondMaster {s : State} {tr : Transaction} {rest : List Input}
    (hp : s.pending = .secondMaster tr :: rest) : step s = .refused .secondMaster := by
  simp [step, hp, receive]

/-- Settles O50: the step is the platform's reset, which is `State.reset` but for the fields outside the CMU. -/
theorem platformResetRestoresTheRegisters : Obligations.PlatformResetRestoresTheRegisters := by
  intro s rest hp
  exact ⟨_, step_reset hp, by simp [State.reset]⟩

/-- A word written to `CMD` has a next state, a command's or that of an illegal word (R72, R235). -/
theorem runWord_answers_next (w : Word) (s : State) : ∃ t, runWord w s = .next t := by
  cases hd : decode w with
  | ok i =>
    rw [runWord_of_decode hd]
    exact exec_answers_next i s
  | error e => simp [runWord, hd]

/-- Only a write to `CMD` does more than store a word or answer `ERROR` (R51, R58). -/
theorem writeRegister_answers_next (r : Reg) (v : Word) (s : State) : ∃ t, writeRegister r v s = .next t := by
  cases r
  case CMD => exact runWord_answers_next v _
  all_goals exact ⟨_, rfl⟩

/-- The host's transactions are answered, whether they reach a register or none (R58, R212). -/
theorem serve_answers_next (tr : Transaction) (s : State) : ∃ t, serve tr s = .next t := by
  cases tr with
  | read width off => cases ht : target (.read width off) <;> simp [serve, ht]
  | write width off v =>
    cases ht : target (.write width off v) with
    | none => simp [serve, ht]
    | some r => simpa [serve, ht] using writeRegister_answers_next r v s

/-- Settles O51: of the inputs that can wait, a transaction of the host and a reset have a next state. -/
theorem everyHostInputIsServed : Obligations.EveryHostInputIsServed := by
  intro s
  refine ⟨step_no_input, fun _ _ => step_secondMaster, fun hhost => ?_⟩
  match hp : s.pending with
  | [] => exact ⟨s, step_no_input hp⟩
  | .bus tr :: rest =>
    rw [step_bus hp]
    exact serve_answers_next tr _
  | .secondMaster tr :: rest => exact absurd hp (hhost tr rest)
  | .reset :: rest => exact ⟨_, step_reset hp⟩

end Sys2Proof.Machine
